-- ==== Sys2Proof/Word.lean ====
section
/-! DEFINITION. The word types of the core (00_scope.md rules R6, R8, R10): every value is an unsigned integer of a
stated width. -/

namespace Sys2Proof

/-- A memory byte, a V register, a timer, the stack pointer, an immediate kk (R6, R10). -/
abbrev Byte := BitVec 8

/-- The instruction word, I, PC, a stack entry (R6). -/
abbrev Word := BitVec 16

/-- The 12-bit literal nnn of an instruction (R10). -/
abbrev Literal12 := BitVec 12

/-- The number of a V register: the fields x and y, every value 0 to 15 legal (R21, R83). -/
abbrev RegIdx := Fin 16

/-- The number of a key, 0x0 to 0xF (R38). -/
abbrev Key := Fin 16

/-- The input latch: for each of the sixteen keys, whether it is pressed (R38). -/
abbrev Latch := Vector Bool 16

/-- The latch of a cycle in which no key is pressed. -/
def Latch.released : Latch := Vector.replicate 16 false

/-- The framebuffer: 32 rows of 64 cells, row-major; the outer index is the row (R34). -/
abbrev Framebuffer := Vector (Vector Bool 64) 32

end Sys2Proof
end

