-- ==== Sys2Proof/Syntax.lean ====
section
/-! DEFINITION. The instructions: one constructor per row of 30_encoding.md rule R84, in the table's order. The
operands are the fields of rule R81, each of a type that holds exactly its legal values (R83). -/

namespace Sys2Proof

inductive Instr where
  /-- 00E0 CLS (R173); a word stands for it only when CLS_ENABLED holds (R86). -/
  | cls
  /-- 00EE RET (R102). -/
  | ret
  /-- 1nnn JP nnn (R100). -/
  | jp (nnn : Literal12)
  /-- 2nnn CALL nnn (R101). -/
  | call (nnn : Literal12)
  /-- 3xkk SE Vx, kk (R120). -/
  | seVxKk (x : RegIdx) (kk : Byte)
  /-- 4xkk SNE Vx, kk (R121). -/
  | sneVxKk (x : RegIdx) (kk : Byte)
  /-- 5xy0 SE Vx, Vy (R122). -/
  | seVxVy (x y : RegIdx)
  /-- 6xkk LD Vx, kk (R130). -/
  | ldVxKk (x : RegIdx) (kk : Byte)
  /-- 7xkk ADD Vx, kk (R131). -/
  | addVxKk (x : RegIdx) (kk : Byte)
  /-- 8xy0 LD Vx, Vy (R132). -/
  | ldVxVy (x y : RegIdx)
  /-- 8xy1 OR Vx, Vy (R133). -/
  | orVxVy (x y : RegIdx)
  /-- 8xy2 AND Vx, Vy (R134). -/
  | andVxVy (x y : RegIdx)
  /-- 8xy3 XOR Vx, Vy (R135). -/
  | xorVxVy (x y : RegIdx)
  /-- 8xy4 ADD Vx, Vy (R136). -/
  | addVxVy (x y : RegIdx)
  /-- 8xy5 SUB Vx, Vy (R137). -/
  | subVxVy (x y : RegIdx)
  /-- 8xy6 SHR Vx, Vy (R138). -/
  | shrVxVy (x y : RegIdx)
  /-- 8xy7 SUBN Vx, Vy (R139). -/
  | subnVxVy (x y : RegIdx)
  /-- 8xyE SHL Vx, Vy (R140). -/
  | shlVxVy (x y : RegIdx)
  /-- 9xy0 SNE Vx, Vy (R123). -/
  | sneVxVy (x y : RegIdx)
  /-- Annn LD I, nnn (R150). -/
  | ldINnn (nnn : Literal12)
  /-- Bnnn JP V0, nnn (R104). -/
  | jpV0 (nnn : Literal12)
  /-- Cxkk RND Vx, kk (R188). -/
  | rndVxKk (x : RegIdx) (kk : Byte)
  /-- Dxyn DRW Vx, Vy, n (R171); n is the number of rows, 0 to 15. -/
  | drw (x y : RegIdx) (n : Fin 16)
  /-- Ex9E SKP Vx (R180). -/
  | skp (x : RegIdx)
  /-- ExA1 SKNP Vx (R181). -/
  | sknp (x : RegIdx)
  /-- Fx07 LD Vx, DT (R185). -/
  | ldVxDt (x : RegIdx)
  /-- Fx0A LD Vx, K (R183). -/
  | ldVxK (x : RegIdx)
  /-- Fx15 LD DT, Vx (R186). -/
  | ldDtVx (x : RegIdx)
  /-- Fx18 LD ST, Vx (R187). -/
  | ldStVx (x : RegIdx)
  /-- Fx1E ADD I, Vx (R151). -/
  | addIVx (x : RegIdx)
  /-- Fx29 LD F, Vx (R152). -/
  | ldFVx (x : RegIdx)
  /-- Fx33 LD B, Vx (R154). -/
  | ldBVx (x : RegIdx)
  /-- Fx55 LD [I], Vx (R155): stores V[0] to V[x]. -/
  | ldMemVx (x : RegIdx)
  /-- Fx65 LD Vx, [I] (R156): loads V[0] to V[x]. -/
  | ldVxMem (x : RegIdx)
  deriving DecidableEq, Repr

end Sys2Proof
end

