-- ==== Sys2Proof/WellFormed.lean ====
section
/-! DEFINITION. Which instructions exist under a configuration. The operand types of Syntax hold exactly the legal
operands (R83: "no register field can be illegal"), so the one check left is that CLS exists only when CLS_ENABLED
holds (R86, R173). -/

namespace Sys2Proof

/-- Whether the instruction exists when CLS_ENABLED has the given value (R86, R173). -/
def Instr.wellFormed (clsEnabled : Bool) : Instr → Bool
  | .cls => clsEnabled
  | .ret | .jp _ | .call _ | .jpV0 _ | .ldINnn _ => true
  | .seVxKk _ _ | .sneVxKk _ _ | .ldVxKk _ _ | .addVxKk _ _ | .rndVxKk _ _ => true
  | .seVxVy _ _ | .sneVxVy _ _ | .ldVxVy _ _ | .orVxVy _ _ | .andVxVy _ _ | .xorVxVy _ _ => true
  | .addVxVy _ _ | .subVxVy _ _ | .shrVxVy _ _ | .subnVxVy _ _ | .shlVxVy _ _ => true
  | .drw _ _ _ | .skp _ | .sknp _ => true
  | .ldVxDt _ | .ldVxK _ | .ldDtVx _ | .ldStVx _ | .addIVx _ | .ldFVx _ | .ldBVx _ | .ldMemVx _ | .ldVxMem _ => true

end Sys2Proof
end

