-- ==== Sys2Proof/Decode.lean ====
section
/-! DEFINITION. The decoder, by the procedure of 30_encoding.md rule R88, total on every word and every list of bytes;
then the encoder, by the formats of rule R82; then the table of rule R84, mask and match. -/

namespace Sys2Proof

/-- Why bytes are no instruction. -/
inductive DecodeError where
  /-- The word matches no row of R84 (R85). -/
  | unknownInstruction (w : Word)
  /-- Fewer than two bytes: no word to decode (R80). -/
  | truncated
  deriving DecidableEq, Repr

/-! The fields of the word, by bit position (R81). -/

/-- op = w[15:12], the family. -/
def opField (w : Word) : BitVec 4 := w.extractLsb' 12 4

/-- The register a 4-bit field names; every value is one (R83). -/
def regOfBits (b : BitVec 4) : RegIdx := b.toFin

/-- x = w[11:8]. -/
def xField (w : Word) : RegIdx := regOfBits (w.extractLsb' 8 4)

/-- y = w[7:4]. -/
def yField (w : Word) : RegIdx := regOfBits (w.extractLsb' 4 4)

/-- n = w[3:0]. -/
def nField (w : Word) : BitVec 4 := w.extractLsb' 0 4

/-- kk = w[7:0]. -/
def kkField (w : Word) : Byte := w.extractLsb' 0 8

/-- nnn = w[11:0]. -/
def nnnField (w : Word) : Literal12 := w.extractLsb' 0 12

/-- Family 0: the whole word is compared (R88); 0x00E0 is CLS only when CLS_ENABLED holds (R86). -/
def decodeFixed (clsEnabled : Bool) (w : Word) : Except DecodeError Instr :=
  if w = 0x00EE then .ok .ret
  else if w = 0x00E0 ∧ clsEnabled = true then .ok .cls
  else .error (.unknownInstruction w)

/-- Family 8: selected by n (R88); 8 to D and F are unknown (R143). -/
def decodeAlu (w : Word) : Except DecodeError Instr :=
  match (nField w).toNat with
  | 0x0 => .ok (.ldVxVy (xField w) (yField w))
  | 0x1 => .ok (.orVxVy (xField w) (yField w))
  | 0x2 => .ok (.andVxVy (xField w) (yField w))
  | 0x3 => .ok (.xorVxVy (xField w) (yField w))
  | 0x4 => .ok (.addVxVy (xField w) (yField w))
  | 0x5 => .ok (.subVxVy (xField w) (yField w))
  | 0x6 => .ok (.shrVxVy (xField w) (yField w))
  | 0x7 => .ok (.subnVxVy (xField w) (yField w))
  | 0xE => .ok (.shlVxVy (xField w) (yField w))
  | _ => .error (.unknownInstruction w)

/-- Families 5 and 9: n must be 0 (R88). -/
def decodeRegSkip (i : RegIdx → RegIdx → Instr) (w : Word) : Except DecodeError Instr :=
  if nField w = 0 then .ok (i (xField w) (yField w)) else .error (.unknownInstruction w)

/-- Family E: selected by kk (R88). -/
def decodeKeySkip (w : Word) : Except DecodeError Instr :=
  match (kkField w).toNat with
  | 0x9E => .ok (.skp (xField w))
  | 0xA1 => .ok (.sknp (xField w))
  | _ => .error (.unknownInstruction w)

/-- Family F: selected by kk (R88). -/
def decodeMisc (w : Word) : Except DecodeError Instr :=
  match (kkField w).toNat with
  | 0x07 => .ok (.ldVxDt (xField w))
  | 0x0A => .ok (.ldVxK (xField w))
  | 0x15 => .ok (.ldDtVx (xField w))
  | 0x18 => .ok (.ldStVx (xField w))
  | 0x1E => .ok (.addIVx (xField w))
  | 0x29 => .ok (.ldFVx (xField w))
  | 0x33 => .ok (.ldBVx (xField w))
  | 0x55 => .ok (.ldMemVx (xField w))
  | 0x65 => .ok (.ldVxMem (xField w))
  | _ => .error (.unknownInstruction w)

/-- The instruction a word is, or that it is unknown (R84, R85, R88). It reads the word and CLS_ENABLED and nothing
else (R80). -/
def decodeWord (clsEnabled : Bool) (w : Word) : Except DecodeError Instr :=
  match (opField w).toNat with
  | 0x0 => decodeFixed clsEnabled w
  | 0x1 => .ok (.jp (nnnField w))
  | 0x2 => .ok (.call (nnnField w))
  | 0x3 => .ok (.seVxKk (xField w) (kkField w))
  | 0x4 => .ok (.sneVxKk (xField w) (kkField w))
  | 0x5 => decodeRegSkip .seVxVy w
  | 0x6 => .ok (.ldVxKk (xField w) (kkField w))
  | 0x7 => .ok (.addVxKk (xField w) (kkField w))
  | 0x8 => decodeAlu w
  | 0x9 => decodeRegSkip .sneVxVy w
  | 0xA => .ok (.ldINnn (nnnField w))
  | 0xB => .ok (.jpV0 (nnnField w))
  | 0xC => .ok (.rndVxKk (xField w) (kkField w))
  | 0xD => .ok (.drw (xField w) (yField w) (regOfBits (nField w)))
  | 0xE => decodeKeySkip w
  | 0xF => decodeMisc w
  | _ => .error (.unknownInstruction w)

/-- The word two consecutive bytes hold: the byte at the lower address is the high byte (R53, R63). -/
def wordOfBytes (high low : Byte) : Word := high ++ low

/-- The two bytes of a word, in the order memory holds them (R80). -/
def bytesOfWord (w : Word) : List Byte := [w.extractLsb' 8 8, w.extractLsb' 0 8]

/-- The instruction at the front of a list of bytes, with the bytes after it. -/
def decodeBytes (clsEnabled : Bool) : List Byte → Except DecodeError (Instr × List Byte)
  | high :: low :: rest =>
    match decodeWord clsEnabled (wordOfBytes high low) with
    | .ok i => .ok (i, rest)
    | .error e => .error e
  | _ => .error .truncated

/-- What the decoder reads from the word w, its bits numbered as spec/opcode_table.json numbers them. The table holds
the row of CLS, so this is the decoder with CLS_ENABLED true; every other word decodes alike under either value (log
entry 6). -/
def decodeTableWord (nbits w : Nat) : Option Instr :=
  if w % 2 ^ nbits < 2 ^ 16 then
    match decodeBytes true (bytesOfWord (BitVec.ofNat 16 (w % 2 ^ nbits))) with
    | .ok (i, _) => some i
    | .error _ => none
  else none

/-! The encoder. -/

/-- The 4-bit field that names a register. -/
def bitsOfReg (x : RegIdx) : BitVec 4 := BitVec.ofNat 4 x.val

/-- Format NNN (R82). -/
def encodeNnn (op : BitVec 4) (nnn : Literal12) : Word := op ++ nnn

/-- Format XKK, and XSS, whose sub-opcode stands where kk does (R82). -/
def encodeXkk (op : BitVec 4) (x : RegIdx) (kk : Byte) : Word := (op ++ bitsOfReg x) ++ kk

/-- Formats XYN and XYS, whose sub-opcode stands where n does (R82). -/
def encodeXyn (op : BitVec 4) (x y : RegIdx) (n : BitVec 4) : Word := (op ++ bitsOfReg x) ++ (bitsOfReg y ++ n)

/-- The word of an instruction (R82, R84). -/
def encode : Instr → Word
  | .cls => 0x00E0
  | .ret => 0x00EE
  | .jp nnn => encodeNnn 0x1 nnn
  | .call nnn => encodeNnn 0x2 nnn
  | .seVxKk x kk => encodeXkk 0x3 x kk
  | .sneVxKk x kk => encodeXkk 0x4 x kk
  | .seVxVy x y => encodeXyn 0x5 x y 0x0
  | .ldVxKk x kk => encodeXkk 0x6 x kk
  | .addVxKk x kk => encodeXkk 0x7 x kk
  | .ldVxVy x y => encodeXyn 0x8 x y 0x0
  | .orVxVy x y => encodeXyn 0x8 x y 0x1
  | .andVxVy x y => encodeXyn 0x8 x y 0x2
  | .xorVxVy x y => encodeXyn 0x8 x y 0x3
  | .addVxVy x y => encodeXyn 0x8 x y 0x4
  | .subVxVy x y => encodeXyn 0x8 x y 0x5
  | .shrVxVy x y => encodeXyn 0x8 x y 0x6
  | .subnVxVy x y => encodeXyn 0x8 x y 0x7
  | .shlVxVy x y => encodeXyn 0x8 x y 0xE
  | .sneVxVy x y => encodeXyn 0x9 x y 0x0
  | .ldINnn nnn => encodeNnn 0xA nnn
  | .jpV0 nnn => encodeNnn 0xB nnn
  | .rndVxKk x kk => encodeXkk 0xC x kk
  | .drw x y n => encodeXyn 0xD x y (bitsOfReg n)
  | .skp x => encodeXkk 0xE x 0x9E
  | .sknp x => encodeXkk 0xE x 0xA1
  | .ldVxDt x => encodeXkk 0xF x 0x07
  | .ldVxK x => encodeXkk 0xF x 0x0A
  | .ldDtVx x => encodeXkk 0xF x 0x15
  | .ldStVx x => encodeXkk 0xF x 0x18
  | .addIVx x => encodeXkk 0xF x 0x1E
  | .ldFVx x => encodeXkk 0xF x 0x29
  | .ldBVx x => encodeXkk 0xF x 0x33
  | .ldMemVx x => encodeXkk 0xF x 0x55
  | .ldVxMem x => encodeXkk 0xF x 0x65

/-! The table of R84, written from its columns "#", mask and match. -/

/-- The number of the instruction's row in R84. -/
def Instr.rowNumber : Instr → Nat
  | .cls => 1
  | .ret => 2
  | .jp _ => 3
  | .call _ => 4
  | .seVxKk _ _ => 5
  | .sneVxKk _ _ => 6
  | .seVxVy _ _ => 7
  | .ldVxKk _ _ => 8
  | .addVxKk _ _ => 9
  | .ldVxVy _ _ => 10
  | .orVxVy _ _ => 11
  | .andVxVy _ _ => 12
  | .xorVxVy _ _ => 13
  | .addVxVy _ _ => 14
  | .subVxVy _ _ => 15
  | .shrVxVy _ _ => 16
  | .subnVxVy _ _ => 17
  | .shlVxVy _ _ => 18
  | .sneVxVy _ _ => 19
  | .ldINnn _ => 20
  | .jpV0 _ => 21
  | .rndVxKk _ _ => 22
  | .drw _ _ _ => 23
  | .skp _ => 24
  | .sknp _ => 25
  | .ldVxDt _ => 26
  | .ldVxK _ => 27
  | .ldDtVx _ => 28
  | .ldStVx _ => 29
  | .addIVx _ => 30
  | .ldFVx _ => 31
  | .ldBVx _ => 32
  | .ldMemVx _ => 33
  | .ldVxMem _ => 34

/-- Rows 1 to 17 of R84: number, mask, match. -/
def opcodeRowsLow : List (Nat × Word × Word) :=
  [(1, 0xFFFF, 0x00E0), (2, 0xFFFF, 0x00EE), (3, 0xF000, 0x1000), (4, 0xF000, 0x2000), (5, 0xF000, 0x3000),
   (6, 0xF000, 0x4000), (7, 0xF00F, 0x5000), (8, 0xF000, 0x6000), (9, 0xF000, 0x7000), (10, 0xF00F, 0x8000),
   (11, 0xF00F, 0x8001), (12, 0xF00F, 0x8002), (13, 0xF00F, 0x8003), (14, 0xF00F, 0x8004), (15, 0xF00F, 0x8005),
   (16, 0xF00F, 0x8006), (17, 0xF00F, 0x8007)]

/-- Rows 18 to 34 of R84. -/
def opcodeRowsHigh : List (Nat × Word × Word) :=
  [(18, 0xF00F, 0x800E), (19, 0xF00F, 0x9000), (20, 0xF000, 0xA000), (21, 0xF000, 0xB000), (22, 0xF000, 0xC000),
   (23, 0xF000, 0xD000), (24, 0xF0FF, 0xE09E), (25, 0xF0FF, 0xE0A1), (26, 0xF0FF, 0xF007), (27, 0xF0FF, 0xF00A),
   (28, 0xF0FF, 0xF015), (29, 0xF0FF, 0xF018), (30, 0xF0FF, 0xF01E), (31, 0xF0FF, 0xF029), (32, 0xF0FF, 0xF033),
   (33, 0xF0FF, 0xF055), (34, 0xF0FF, 0xF065)]

/-- The 34 rows of R84. -/
def opcodeRows : List (Nat × Word × Word) := opcodeRowsLow ++ opcodeRowsHigh

/-- "A word w is the instruction of a row when w & mask == match" (R84). -/
def matchesRow (w : Word) (row : Nat × Word × Word) : Bool := w &&& row.2.1 == row.2.2

end Sys2Proof
end

