-- ==== Sys2Proof/Config.lean ====
section
/-! DEFINITION. What an implementation fixes: the constants of 00_scope.md rule R6, the parameters of rule R7 as the
fields of Config, and the free values (no body, so nothing can be proved of them). -/

namespace Sys2Proof

/-- Bytes of memory, addresses 0 to 4095 (R6). -/
abbrev memSize : Nat := 4096

/-- The first address a loaded program occupies, and the initial PC (R6). -/
abbrev programBase : Nat := 0x200

/-- The largest loadable program in bytes, MEM_SIZE - PROGRAM_BASE (R6). -/
abbrev programCapacity : Nat := memSize - programBase

/-- Entries of the address stack (R6). -/
abbrev stackSlots : Nat := 16

/-- VF_WRITE_ORDER (R7, R141): of the two writes of a flag-writing instruction, which one comes last. It matters only
when x = 15. -/
inductive VfWriteOrder where
  /-- The flag is written last, so VF holds the flag: the value R7 takes (decision D8). -/
  | flagLast
  /-- The result is written last, so with x = 15 VF holds the result. -/
  | resultLast
  deriving DecidableEq, Repr

/-- ERROR_CODES (R7, R204): the number of each error kind. -/
structure ErrorCodes where
  outOfBounds : Nat
  capacityExceeded : Nat
  unknownInstruction : Nat
  inputUnavailable : Nat
  deriving DecidableEq, Repr

/-- The parameters the source leaves open (R7). A machine is constructed with them and nothing changes them. -/
structure Config where
  /-- CLS_ENABLED: whether the word 0x00E0 is CLS or an unknown instruction (R86). -/
  clsEnabled : Bool
  /-- STACK_USABLE_DEPTH: nested calls that succeed before CapacityExceeded (R29). -/
  stackUsableDepth : Nat
  /-- SP_RESET: the stack pointer after construction, and the empty state (R27). -/
  spReset : Byte
  /-- FONT_BASE: the address of the glyph of digit 0 (R152). -/
  fontBase : Nat
  /-- GLYPH_STRIDE: bytes from one glyph to the next (R152). -/
  glyphStride : Nat
  /-- FONT_TABLE: the bytes at FONT_BASE to FONT_BASE + 79 after construction (R153). -/
  fontTable : Vector Byte 80
  /-- KEY_SELECT, "latch -> key", as the table of that function: the key Fx0A stores for each latch listed. A latch that
  is not listed, or that has the key listed for it released, takes its lowest pressed key (R183, R184(b)). Every function
  that chooses a pressed key has such a table (Laws/Exec.lean). -/
  keySelect : List (Latch × Key)
  /-- VF_WRITE_ORDER (R141). -/
  vfWriteOrder : VfWriteOrder
  /-- ERROR_CODES (R204). -/
  errorCodes : ErrorCodes
  deriving DecidableEq, Repr

namespace Config

/-- The glyphs of the digits 0 to 7 (R153). PRESUMED: the spec marks the bytes as from general knowledge. -/
def glyphsLow : Vector Byte 40 := #v[
  0xF0, 0x90, 0x90, 0x90, 0xF0,   0x20, 0x60, 0x20, 0x20, 0x70,
  0xF0, 0x10, 0xF0, 0x80, 0xF0,   0xF0, 0x10, 0xF0, 0x10, 0xF0,
  0x90, 0x90, 0xF0, 0x10, 0x10,   0xF0, 0x80, 0xF0, 0x10, 0xF0,
  0xF0, 0x80, 0xF0, 0x90, 0xF0,   0xF0, 0x10, 0x20, 0x40, 0x40]

/-- The glyphs of the digits 8 to F (R153). PRESUMED, as glyphsLow. -/
def glyphsHigh : Vector Byte 40 := #v[
  0xF0, 0x90, 0xF0, 0x90, 0xF0,   0xF0, 0x90, 0xF0, 0x10, 0xF0,
  0xF0, 0x90, 0xF0, 0x90, 0x90,   0xE0, 0x90, 0xE0, 0x90, 0xE0,
  0xF0, 0x80, 0x80, 0x80, 0xF0,   0xE0, 0x90, 0x90, 0x90, 0xE0,
  0xF0, 0x80, 0xF0, 0x80, 0xF0,   0xF0, 0x80, 0xF0, 0x80, 0x80]

/-- The value R7 takes for each parameter (decisions D3, D5, D8, D14, D16, D18). -/
def taken : Config where
  clsEnabled := false
  stackUsableDepth := 15
  spReset := 0
  fontBase := 0
  glyphStride := 5
  fontTable := glyphsLow ++ glyphsHigh
  keySelect := []
  vfWriteOrder := .flagLast
  errorCodes := ⟨1, 2, 3, 4⟩

/-- The limits the spec sets on the parameters: the glyph table lies below 0x200 (D16) and every glyph address lies in
it (DEDUCED from R152); the entries a call can store to are entries of the sixteen (D3, C2: either the empty value is
at least 0 with no wrap, or it is 0xFF wrapping to 0). -/
def wf (c : Config) : Bool :=
  c.fontBase + 80 ≤ programBase && 15 * c.glyphStride + 5 ≤ 80
    && (c.spReset.toNat + c.stackUsableDepth < stackSlots || c.spReset == 0xFF && c.stackUsableDepth ≤ stackSlots)

/-- FREE VALUE: the latch of the n-th cycle whose inputs the schedule does not give (R38, U15: "any 16 bits each
cycle, no relation between cycles"). -/
opaque freeLatch : Nat → Latch

/-- FREE VALUE: the random byte of the n-th cycle whose inputs the schedule does not give (R39, U1: "any value, afresh
each cycle, no relation between cycles"). -/
opaque freeRandom : Nat → Byte

end Config

end Sys2Proof
end

