-- ==== Sys2Proof/Machine/State.lean ====
section
/-! DEFINITION. The state of the machine as plain data (10_state.md rule R20), with the inputs and outputs of an
operation (rules R38 to R40), the host's schedule and the configuration; the reasons a step stops; the state after
construction (rule R41). -/

namespace Sys2Proof.Machine

/-- Why an operation ended with an error: the four error kinds of R204, and one stop of the model's own. A fault is
precise: the whole state is what it was when the operation began (R207), so it carries none. -/
inductive Fault where
  /-- OutOfBounds (R204): raised by the fetch (R202), Dxyn (R171), Fx33 (R154), Fx55 (R155), Fx65 (R156), and by Ex9E
  and ExA1 on a key index above 15 (R182, decision D13). Safe: the machine's own error; for a key index above 15 the
  source names no behaviour, and the model stops. -/
  | outOfBounds
  /-- CapacityExceeded (R204): raised by 2nnn on a full stack (R101), 00EE on an empty one (R102), and a load of more
  than 3584 bytes (R56). Safe: the machine's own error; the depth is decision D3, which stops no later than the machine. -/
  | capacityExceeded
  /-- UnknownInstruction (R204): raised by the decode of every cycle (R85, R203). Safe: the machine's own error. -/
  | unknownInstruction
  /-- InputUnavailable (R204): raised by nothing in this core (R220); the kind is the source's. Safe. -/
  | inputUnavailable
  /-- The model's own: 00EE with an SP that is not the empty value and numbers none of the sixteen entries. The spec
  gives such a state no meaning and says no run reaches it (R29). Safe. -/
  | stackPointerOutsideStack
  deriving DecidableEq, Repr

/-- Why a step has no meaning. -/
inductive Refusal where
  /-- Raised by exec for an instruction that has no meaning yet; no arm raises it any more. Safe. -/
  | notModelled (mnemonic : String)
  deriving DecidableEq, Repr

/-- What the last operation told its caller (R40, R201). -/
inductive Report where
  /-- The operation was carried out completely. -/
  | done
  /-- The cycle found Fx0A with no key pressed (R183). -/
  | waiting
  /-- The operation ended with an error (R207). -/
  | error (e : Fault)
  deriving DecidableEq, Repr

/-- What the host may do next that changes the core (R200, R219). -/
inductive HostAction where
  /-- `executeCycle(latch, rnd)` (R201). -/
  | executeCycle (latch : Latch) (rnd : Byte)
  /-- `tickTimers()` (R214). -/
  | tickTimers
  /-- `load(programBytes)` (R56). -/
  | load (programBytes : List Byte)
  deriving DecidableEq, Repr

/-- Memory: the bytes that differ from what construction left, by rising address. -/
abbrev Memory := List Host.Cell

/-- The state (R20), then the inputs and the output of an operation, then the model's own fields. -/
structure State where
  /-- V[0] to V[15]; V[15] is VF (R21, R22). -/
  v : Vector Byte 16
  /-- The index register I (R23). -/
  i : Word
  /-- The program counter (R24). -/
  pc : Word
  /-- The stack pointer (R27). -/
  sp : Byte
  /-- stack[0] to stack[15], outside memory (R28). -/
  stack : Vector Word 16
  /-- The delay timer (R30). -/
  dt : Byte
  /-- The sound timer (R31). -/
  st : Byte
  /-- MEM (R33). -/
  mem : Memory
  /-- FB (R34). -/
  fb : Framebuffer
  /-- The input latch of the current cycle (R38). -/
  latch : Latch
  /-- The random byte of the current cycle (R39). -/
  rnd : Byte
  /-- The outcome of the last operation (R40). -/
  report : Report
  /-- The host's next actions, the next one first (log entry 2). -/
  schedule : List HostAction
  /-- How many cycles have drawn their inputs from the free values (log entry 3). -/
  freeCount : Nat
  /-- The implementation's parameters (R7); no step changes them. -/
  cfg : Config
  deriving DecidableEq, Repr

/-- What every operation ends in. -/
abbrev Result := Host.Outcome State Fault Refusal

/-- The state after construction of a machine with the given parameters (R41, R230). PC, memory and framebuffer are the
source's values; V, I, SP, the stack, DT and ST are decision D2 (log entry 7); the fields that are not the spec's state
are log entries 1, 2, 3 and 25. -/
def State.construct (cfg : Config) : State where
  v := Vector.replicate 16 0
  i := 0
  pc := 0x200
  sp := cfg.spReset
  stack := Vector.replicate 16 0
  dt := 0
  st := 0
  mem := []
  fb := Vector.replicate 32 (Vector.replicate 64 false)
  latch := Latch.released
  rnd := 0
  report := .done
  schedule := []
  freeCount := 0
  cfg := cfg

/-- The machine right after reset, which is construction (R230), with the parameters' values of R7. -/
def State.reset : State := State.construct Config.taken

end Sys2Proof.Machine
end

