-- ==== Sys2Proof/Machine/Ops.lean ====
section
/-! DEFINITION. The named operations every meaning is written over: the error, registers, the movement of PC, the
stack, the memory controller, the framebuffer accessor, and the host's side of a step. -/

namespace Sys2Proof.Machine

/-! ## The error (60_exceptions.md rules R207, R209, R211) -/

/-- `raise E`: the operation ends with error kind E and the state it began with (R207). "Entry is only this: the
invocation returns Error(kind) to its caller" (R209): no handler, no saved register, no mode. Nothing returns from an
error (R211); `State.afterError` is the state the host still holds. -/
def raise (_s : State) (e : Fault) : Result := .fault e

/-- The number of an error kind (R204); the model's own stop has none. -/
def Fault.code (c : Config) : Fault → Option Nat
  | .outOfBounds => some c.errorCodes.outOfBounds
  | .capacityExceeded => some c.errorCodes.capacityExceeded
  | .unknownInstruction => some c.errorCodes.unknownInstruction
  | .inputUnavailable => some c.errorCodes.inputUnavailable
  | .stackPointerOutsideStack => none

/-! ## Registers (10_state.md rules R21 to R23, R30, R31) -/

/-- V[x], read. -/
def State.readV (s : State) (x : RegIdx) : Byte := s.v[x]

/-- V[x] <- b. -/
def State.writeV (s : State) (x : RegIdx) (b : Byte) : State := { s with v := s.v.set x b }

/-- VF, the register that reports carry, borrow, shifted-out bit and collision: V[15] (R22). -/
def flagReg : RegIdx := 15

/-- V[0] to V[k-1] <- the k bytes, in order (R156); registers past the last byte keep their values. -/
def State.writeRegs (s : State) (bytes : List Byte) : State :=
  { s with v := Vector.ofFn fun k : Fin 16 => bytes[k.val]?.getD s.v[k] }

/-- V[0] to V[x], in order (R155). -/
def State.regsThrough (s : State) (x : RegIdx) : List Byte := s.v.toList.take (x.val + 1)

/-- I <- a. -/
def State.setI (s : State) (a : Word) : State := { s with i := a }

/-- DT <- b. -/
def State.setDt (s : State) (b : Byte) : State := { s with dt := b }

/-- ST <- b. -/
def State.setSt (s : State) (b : Byte) : State := { s with st := b }

/-! ## The end of a cycle (10_state.md rule R25) -/

/-- The cycle's last act: PC gets its new value, and the cycle ends as Done (R24, R201). -/
def State.finish (s : State) (pc : Word) : State := { s with pc := pc, report := .done }

/-- The default advance, one instruction-width (R25). -/
def State.next (s : State) : State := s.finish (s.pc + 2)

/-- The advance that passes over one instruction (R25). -/
def State.skip (s : State) : State := s.finish (s.pc + 4)

/-- `if condition then skip else next` (R120). -/
def State.skipIf (s : State) (condition : Bool) : State := if condition then s.skip else s.next

/-- The cycle ends as Waiting: no state changes and PC is not advanced (R183). -/
def State.wait (s : State) : State := { s with report := .waiting }

/-! ## The stack (10_state.md rules R27 to R29; decision D3) -/

/-- The number of outstanding calls. -/
def State.callDepth (s : State) : Nat := (s.sp - s.cfg.spReset).toNat

/-- No further call fits: STACK_USABLE_DEPTH calls are outstanding, or the store would go beyond the sixteen entries
(R101). -/
def State.stackFull (s : State) : Bool := s.cfg.stackUsableDepth ≤ s.callDepth || stackSlots ≤ (s.sp + 1).toNat

/-- SP is at the empty state (R102). -/
def State.stackEmpty (s : State) : Bool := s.sp == s.cfg.spReset

/-- SP <- SP + 1, then stack[SP] <- a (R101). -/
def State.push (s : State) (a : Word) : State :=
  { s with sp := s.sp + 1, stack := s.stack.setIfInBounds (s.sp + 1).toNat a }

/-- stack[SP]; none when SP numbers no entry. -/
def State.stackTop (s : State) : Option Word := s.stack[s.sp.toNat]?

/-- SP <- SP - 1; the popped entry is not cleared (R102). -/
def State.pop (s : State) : State := { s with sp := s.sp - 1 }

/-! ## Memory (20_memory.md rules R50 to R57) -/

/-- The byte construction leaves at an address: the glyph table at FONT_BASE to FONT_BASE + 79, 0 elsewhere (R41,
R153). An address not listed in memory reads as this. -/
def constructedByte (c : Config) (a : Nat) : Byte :=
  if h : c.fontBase ≤ a ∧ a < c.fontBase + 80 then c.fontTable[a - c.fontBase] else 0

/-- MEM[a]. -/
def Memory.read (c : Config) : Memory → Nat → Byte
  | [], a => constructedByte c a
  | (k, b) :: m, a => if a = k then b else Memory.read c m a

/-- The memory without an entry for the address. -/
def Memory.erase : Memory → Nat → Memory
  | [], _ => []
  | (k, b) :: m, a => if a = k then Memory.erase m a else (k, b) :: Memory.erase m a

/-- The memory with the entry put before the first one of a higher address. -/
def Memory.insert : Memory → Nat → Byte → Memory
  | [], a, v => [(a, v)]
  | (k, b) :: m, a, v => if a < k then (a, v) :: (k, b) :: m else (k, b) :: Memory.insert m a v

/-- MEM[a] <- v; a byte equal to what construction left is not listed. -/
def Memory.write (c : Config) (m : Memory) (a : Nat) (v : Byte) : Memory :=
  if v = constructedByte c a then m.erase a else (m.erase a).insert a v

/-- The canonical form from an address on: addresses strictly rising and inside the address space, and no byte equal to
what construction left. -/
def Memory.wfFrom (c : Config) : Nat → Memory → Bool
  | _, [] => true
  | low, (k, b) :: m => low ≤ k && k < memSize && b != constructedByte c k && Memory.wfFrom c (k + 1) m

/-- The canonical form of memory. -/
def Memory.wf (c : Config) (m : Memory) : Bool := Memory.wfFrom c 0 m

/-- MEM[a], of a state. -/
def State.byteAt (s : State) (a : Nat) : Byte := Memory.read s.cfg s.mem a

/-- MEM[a] <- b, of a state. -/
def State.setByte (s : State) (a : Nat) (b : Byte) : State := { s with mem := Memory.write s.cfg s.mem a b }

/-- Whether the n bytes from a on all exist: no address of the range is 4096 or more, on unbounded naturals (R50, R54,
R157); an empty range always does (R172(c)). -/
def rangeExists (a n : Nat) : Bool := n == 0 || a + n ≤ memSize

/-- The n bytes from a on, in order. -/
def State.bytesFrom (s : State) (a : Nat) : Nat → List Byte
  | 0 => []
  | n + 1 => s.byteAt a :: s.bytesFrom (a + 1) n

/-- The bytes written from a on, ascending. -/
def State.setBytes (s : State) (a : Nat) : List Byte → State
  | [] => s
  | b :: bs => (s.setByte a b).setBytes (a + 1) bs

/-- n reads of one byte, all or nothing (R51, R157). -/
def State.loadRange (s : State) (a n : Nat) : Except Fault (List Byte) :=
  if rangeExists a n then .ok (s.bytesFrom a n) else .error .outOfBounds

/-- Writes of one byte each, all or nothing (R52, R157). -/
def State.storeRange (s : State) (a : Nat) (bytes : List Byte) : Except Fault State :=
  if rangeExists a bytes.length then .ok (s.setBytes a bytes) else .error .outOfBounds

/-- `MemRead(addr, 1)` (R51). -/
def State.memRead (s : State) (a : Nat) : Except Fault Byte :=
  match s.loadRange a 1 with
  | .ok (b :: _) => .ok b
  | .ok [] => .error .outOfBounds
  | .error e => .error e

/-- `MemWrite(addr, 1, v)` (R52). -/
def State.memWrite (s : State) (a : Nat) (v : Byte) : Except Fault State := s.storeRange a [v]

/-- `MemRead(addr, 2)`, the fetch form: big-endian, on unbounded naturals (R53). -/
def State.memRead16 (s : State) (a : Nat) : Except Fault Word :=
  match s.loadRange a 2 with
  | .ok (high :: low :: _) => .ok (wordOfBytes high low)
  | .ok _ => .error .outOfBounds
  | .error e => .error e

/-! ## The framebuffer accessor (20_memory.md rules R59 to R62) -/

/-- `FbGet(px, py)`: the cell at column px mod 64, row py mod 32; never fails (R60). -/
def fbGet (fb : Framebuffer) (px py : Nat) : Bool :=
  (fb[py % 32]'(Nat.mod_lt py (by decide)))[px % 64]'(Nat.mod_lt px (by decide))

/-- `FbSet(px, py, b)`: assigns that cell and no other; never fails (R61). -/
def fbSet (fb : Framebuffer) (px py : Nat) (b : Bool) : Framebuffer :=
  fb.set (py % 32) ((fb[py % 32]'(Nat.mod_lt py (by decide))).set (px % 64) b (Nat.mod_lt px (by decide)))
    (Nat.mod_lt py (by decide))

/-- `FbClear()`: every cell 0 (R59). -/
def fbClear : Framebuffer := Vector.replicate 32 (Vector.replicate 64 false)

/-- The framebuffer of a state, replaced. -/
def State.setFb (s : State) (fb : Framebuffer) : State := { s with fb := fb }

/-! ## The host's side of a step (60_exceptions.md rules R200, R201, R219) -/

/-- The next listed action is taken from the schedule. -/
def State.takeAction (s : State) (rest : List HostAction) : State := { s with schedule := rest }

/-- The inputs of a cycle are presented to the core (R37 to R39). -/
def State.present (s : State) (latch : Latch) (rnd : Byte) : State := { s with latch := latch, rnd := rnd }

/-- The inputs of a cycle the schedule does not list: free values, drawn afresh each time (R38, R39, U1, U15). -/
def State.presentFree (s : State) : State :=
  { s with
    latch := Config.freeLatch s.freeCount
    rnd := Config.freeRandom s.freeCount
    freeCount := s.freeCount + 1 }

/-- The state at the start of the cycle the next step runs, its inputs presented; none when the host's next action is
no cycle. With nothing listed, "a driver repeatedly calls 'execute one cycle'" (R200, log entry 2). -/
def State.cycleStart (s : State) : Option State :=
  match s.schedule with
  | [] => some s.presentFree
  | .executeCycle latch rnd :: rest => some ((s.takeAction rest).present latch rnd)
  | .tickTimers :: _ => none
  | .load _ :: _ => none

/-- What the host holds after its action ended with error e: the state as it was (R207), the action taken, the error
reported (R40). A host that goes on after an error goes on from here (R210). -/
def State.afterError (s : State) (e : Fault) : State :=
  match s.schedule with
  | [] => { s with freeCount := s.freeCount + 1, report := .error e }
  | _ :: rest => { s with schedule := rest, report := .error e }

end Sys2Proof.Machine
end

