-- ==== Sys2Proof/Machine/Operands.lean ====
section
/-! DEFINITION. The operand forms: immediates (30_encoding.md rule R83), the key operand and the choice of a pressed
key (45_input_timer_random.md), the glyph address and the decimal digits (43_index_memory.md), the pixels of a sprite
(44_draw.md). -/

namespace Sys2Proof.Machine

/-- zext_16(nnn) (R83). -/
def zext12 (nnn : Literal12) : Word := nnn.setWidth 16

/-- zext_16 of a byte (R83). -/
def zext8 (b : Byte) : Word := b.setWidth 16

/-! ## Keys -/

/-- `Key(k)` (R38). -/
def State.keyPressed (s : State) (k : Key) : Bool := s.latch[k]

/-- The key a register value names; none above 15 (R182). -/
def keyOfByte (b : Byte) : Option Key := if h : b.toNat < 16 then some ⟨b.toNat, h⟩ else none

/-- The keys in the order Fx0A tries them under a latch: those the parameter KEY_SELECT lists for this very latch, then all
sixteen, lowest first (R184(b)). -/
def keyOrder (c : Config) (latch : Latch) : List Key :=
  (c.keySelect.filter fun e => e.1 == latch).map Prod.snd ++ List.finRange 16

/-- KEY_SELECT(latch): the first key of the order that is pressed; none when no key is pressed (R183, R184(b)). With the
value R7 takes this is the lowest pressed key. -/
def State.selectedKey (s : State) : Option Key := (keyOrder s.cfg s.latch).find? fun k => s.keyPressed k

/-- The 8-bit value of a key index. -/
def byteOfKey (k : Key) : Byte := BitVec.ofNat 8 k.val

/-! ## Addresses and digits -/

/-- FONT_BASE + GLYPH_STRIDE * (V[x] & 0x0F) (R152). -/
def glyphAddress (c : Config) (b : Byte) : Word := BitVec.ofNat 16 (c.fontBase + c.glyphStride * (b &&& 0x0F).toNat)

/-- Hundreds, tens and units of a byte, each as the digit's value (R154). -/
def decimalDigits (b : Byte) : List Byte :=
  [BitVec.ofNat 8 (b.toNat / 100), BitVec.ofNat 8 (b.toNat / 10 % 10), BitVec.ofNat 8 (b.toNat % 10)]

/-! ## Sprites (44_draw.md rule R170) -/

/-- One pixel of a sprite: where it lands, before the reduction modulo the framebuffer's size, and its bit. -/
structure Pixel where
  col : Nat
  row : Nat
  lit : Bool
  deriving DecidableEq, Repr

/-- The eight pixels of one row, the most significant bit leftmost (R170). -/
def rowPixels (px py : Nat) (b : Byte) : List Pixel :=
  (List.range 8).map fun bit => ⟨px + bit, py, b.getLsbD (7 - bit)⟩

/-- The pixels of a sprite whose left edge is at px and whose top row is at py (R171). -/
def spritePixels (px py : Nat) : List Byte → List Pixel
  | [] => []
  | b :: bs => rowPixels px py b ++ spritePixels px (py + 1) bs

/-- The framebuffer after the pixels: each cell becomes the XOR of the cell before the draw and the sprite bit (R171). -/
def drawPixels (before : Framebuffer) : List Pixel → Framebuffer → Framebuffer
  | [], fb => fb
  | p :: ps, fb => drawPixels before ps (fbSet fb p.col p.row (fbGet before p.col p.row ^^ p.lit))

/-- Whether any cell goes from 1 to 0, computed from the framebuffer before the draw (R171). -/
def collides (before : Framebuffer) (ps : List Pixel) : Bool := ps.any fun p => p.lit && fbGet before p.col p.row

end Sys2Proof.Machine
end

