-- ==== Sys2Proof/Machine/Cycle.lean ====
section
/-! DEFINITION. The parts of the host's operations that no instruction is needed for: the fetch and decode of a cycle
(60_exceptions.md rules R202, R203), the timer step (rule R214), the program load (20_memory.md rules R56, R57) and the
host's reads (rule R219). -/

namespace Sys2Proof.Machine

/-- The fetch and the decode of the cycle: the word at PC, big-endian, and the instruction it is; OutOfBounds when PC is
4095 or more, else UnknownInstruction when the word is none (R202, R203, R208). -/
def State.fetchInstr (s : State) : Except Fault Instr :=
  match s.memRead16 s.pc.toNat with
  | .error e => .error e
  | .ok w =>
    match decodeWord s.cfg.clsEnabled w with
    | .ok i => .ok i
    | .error _ => .error .unknownInstruction

/-- A timer lowered by one if it is greater than 0 (R214). -/
def countDown (b : Byte) : Byte := if b = 0 then 0 else b - 1

/-- `tickTimers()` (R214). -/
def tickTimers (s : State) : Result := .next { s with dt := countDown s.dt, st := countDown s.st, report := .done }

/-- `load(programBytes)`: the bytes go to 0x200 on, nothing is cleared; CapacityExceeded past 3584 bytes (R56, R57). -/
def loadProgram (bytes : List Byte) (s : State) : Result :=
  if programCapacity < bytes.length then raise s .capacityExceeded
  else .next { s.setBytes programBase bytes with report := .done }

/-- The host's read of one framebuffer cell (R34, R219). -/
def hostReadFb (s : State) (px py : Nat) : Bool := fbGet s.fb px py

/-- The host's read of the sound timer (R31, R219). -/
def hostReadSt (s : State) : Byte := s.st

end Sys2Proof.Machine
end

