-- ==== Sys2Proof/Machine/Flags.lean ====
section
/-! DEFINITION. The flag computations (10_state.md rule R22) and the write of a result together with its flag
(42_alu.md rule R141). -/

namespace Sys2Proof.Machine

/-- VF holds exactly 0x00 or 0x01 after an instruction that writes it as a flag (R22). -/
def flagByte (b : Bool) : Byte := if b then 1 else 0

/-- 8xy4: the unsigned sum is greater than 255 (R136). -/
def carryOut (a b : Byte) : Bool := 255 < a.toNat + b.toNat

/-- 8xy5 and 8xy7: no borrow in minuend - subtrahend; equality is no borrow (R137, R139). -/
def noBorrow (minuend subtrahend : Byte) : Bool := subtrahend.toNat ≤ minuend.toNat

/-- 8xy6: bit 0 (R138). -/
def shiftedOutRight (b : Byte) : Bool := b.getLsbD 0

/-- 8xyE: bit 7 (R140). -/
def shiftedOutLeft (b : Byte) : Bool := b.getLsbD 7

/-- V[x] <- result and VF <- flag, in the order VF_WRITE_ORDER gives; it matters only when x = 15 (R141). -/
def State.writeResultAndFlag (s : State) (x : RegIdx) (result : Byte) (flag : Bool) : State :=
  match s.cfg.vfWriteOrder with
  | .flagLast => (s.writeV x result).writeV flagReg (flagByte flag)
  | .resultLast => (s.writeV flagReg (flagByte flag)).writeV x result

end Sys2Proof.Machine
end

