-- ==== Sys2Proof/Machine/Alu.lean ====
section
/-! DEFINITION. Register loads and the ALU (42_alu.md). Every operand is read before any write (rule R141). -/

namespace Sys2Proof.Machine

/-- 6xkk LD Vx, kk (R130). -/
def execLdVxKk (x : RegIdx) (kk : Byte) (s : State) : Result := .next (s.writeV x kk).next

/-- 7xkk ADD Vx, kk: modulo 256, VF not written as a flag (R131). -/
def execAddVxKk (x : RegIdx) (kk : Byte) (s : State) : Result := .next (s.writeV x (s.readV x + kk)).next

/-- 8xy0 LD Vx, Vy (R132). -/
def execLdVxVy (x y : RegIdx) (s : State) : Result := .next (s.writeV x (s.readV y)).next

/-- 8xy1 OR Vx, Vy: VF not written as a flag (R133, decision D30). -/
def execOrVxVy (x y : RegIdx) (s : State) : Result := .next (s.writeV x (s.readV x ||| s.readV y)).next

/-- 8xy2 AND Vx, Vy (R134, decision D30). -/
def execAndVxVy (x y : RegIdx) (s : State) : Result := .next (s.writeV x (s.readV x &&& s.readV y)).next

/-- 8xy3 XOR Vx, Vy (R135, decision D30). -/
def execXorVxVy (x y : RegIdx) (s : State) : Result := .next (s.writeV x (s.readV x ^^^ s.readV y)).next

/-- 8xy4 ADD Vx, Vy: VF <- carry (R136). -/
def execAddVxVy (x y : RegIdx) (s : State) : Result :=
  .next (s.writeResultAndFlag x (s.readV x + s.readV y) (carryOut (s.readV x) (s.readV y))).next

/-- 8xy5 SUB Vx, Vy: V[x] - V[y], VF <- no borrow (R137). -/
def execSubVxVy (x y : RegIdx) (s : State) : Result :=
  .next (s.writeResultAndFlag x (s.readV x - s.readV y) (noBorrow (s.readV x) (s.readV y))).next

/-- 8xy6 SHR Vx, Vy: V[y] shifted right by one, VF <- bit 0 of V[y] (R138). -/
def execShrVxVy (x y : RegIdx) (s : State) : Result :=
  .next (s.writeResultAndFlag x (s.readV y >>> 1) (shiftedOutRight (s.readV y))).next

/-- 8xy7 SUBN Vx, Vy: V[y] - V[x], VF <- no borrow (R139). -/
def execSubnVxVy (x y : RegIdx) (s : State) : Result :=
  .next (s.writeResultAndFlag x (s.readV y - s.readV x) (noBorrow (s.readV y) (s.readV x))).next

/-- 8xyE SHL Vx, Vy: V[y] shifted left by one, VF <- bit 7 of V[y] (R140). -/
def execShlVxVy (x y : RegIdx) (s : State) : Result :=
  .next (s.writeResultAndFlag x (s.readV y <<< 1) (shiftedOutLeft (s.readV y))).next

end Sys2Proof.Machine
end

