-- ==== Sys2Proof/Machine/Draw.lean ====
section
/-! DEFINITION. The framebuffer instructions (44_draw.md). -/

namespace Sys2Proof.Machine

/-- 00E0 CLS: every cell 0, VF not written (R173). Whether a word stands for it is the decoder's matter (R86). -/
def execCls (s : State) : Result := .next (s.setFb fbClear).next

/-- Dxyn DRW Vx, Vy, n: the n-byte sprite at I is XORed onto the framebuffer at (V[x], V[y]) with wraparound, VF <- the
collision bit computed from the framebuffer before the draw; the coordinates are read before VF is written; OutOfBounds
when a byte of the sprite does not exist (R171, R172). -/
def execDrw (x y : RegIdx) (n : Fin 16) (s : State) : Result :=
  match s.loadRange s.i.toNat n.val with
  | .ok sprite =>
    let pixels := spritePixels (s.readV x).toNat (s.readV y).toNat sprite
    .next ((s.setFb (drawPixels s.fb pixels s.fb)).writeV flagReg (flagByte (collides s.fb pixels))).next
  | .error e => raise s e

end Sys2Proof.Machine
end

