-- ==== Sys2Proof/Machine/Flow.lean ====
section
/-! DEFINITION. Control transfer (40_flow.md). -/

namespace Sys2Proof.Machine

/-- 1nnn JP nnn: PC <- zext_16(nnn) (R100). -/
def execJp (nnn : Literal12) (s : State) : Result := .next (s.finish (zext12 nnn))

/-- 2nnn CALL nnn: the address of the instruction after the call goes on the stack at the new top, PC <- zext_16(nnn);
CapacityExceeded when the stack is full (R101, decisions D3, D4). -/
def execCall (nnn : Literal12) (s : State) : Result :=
  if s.stackFull then raise s .capacityExceeded else .next ((s.push (s.pc + 2)).finish (zext12 nnn))

/-- 00EE RET: PC <- stack[SP], SP <- SP - 1; CapacityExceeded when the stack is empty (R102). -/
def execRet (s : State) : Result :=
  if s.stackEmpty then raise s .capacityExceeded
  else
    match s.stackTop with
    | some a => .next (s.pop.finish a)
    | none => raise s .stackPointerOutsideStack

/-- Bnnn JP V0, nnn: PC <- zext_16(nnn) + zext_16(V[0]), not reduced (R104, decision D9). -/
def execJpV0 (nnn : Literal12) (s : State) : Result := .next (s.finish (zext12 nnn + zext8 (s.readV 0)))

end Sys2Proof.Machine
end

