-- ==== Sys2Proof/Machine/IndexMemory.lean ====
section
/-! DEFINITION. The index register and the memory instructions (43_index_memory.md). Each memory instruction checks its
whole range before the first byte moves (rule R157). -/

namespace Sys2Proof.Machine

/-- Annn LD I, nnn (R150). -/
def execLdINnn (nnn : Literal12) (s : State) : Result := .next (s.setI (zext12 nnn)).next

/-- Fx1E ADD I, Vx: modulo 65536, VF not written (R151, decision D10). -/
def execAddIVx (x : RegIdx) (s : State) : Result := .next (s.setI (s.i + zext8 (s.readV x))).next

/-- Fx29 LD F, Vx: the glyph address of the low nibble of V[x] (R152, decision D16). -/
def execLdFVx (x : RegIdx) (s : State) : Result := .next (s.setI (glyphAddress s.cfg (s.readV x))).next

/-- Fx33 LD B, Vx: three decimal digits at I, I+1, I+2 (R154). -/
def execLdBVx (x : RegIdx) (s : State) : Result :=
  match s.storeRange s.i.toNat (decimalDigits (s.readV x)) with
  | .ok t => .next t.next
  | .error e => raise s e

/-- Fx55 LD [I], Vx: V[0] to V[x] at I to I+x; I unchanged (R155, decision D17). -/
def execLdMemVx (x : RegIdx) (s : State) : Result :=
  match s.storeRange s.i.toNat (s.regsThrough x) with
  | .ok t => .next t.next
  | .error e => raise s e

/-- Fx65 LD Vx, [I]: V[0] to V[x] from I to I+x; I unchanged (R156, decision D17). -/
def execLdVxMem (x : RegIdx) (s : State) : Result :=
  match s.loadRange s.i.toNat (x.val + 1) with
  | .ok bytes => .next (s.writeRegs bytes).next
  | .error e => raise s e

end Sys2Proof.Machine
end

