-- ==== Sys2Proof/Machine/InputTimer.lean ====
section
/-! DEFINITION. The instructions that meet the outside: keys, timers, the random byte (45_input_timer_random.md). -/

namespace Sys2Proof.Machine

/-- Ex9E SKP Vx: skip when key V[x] is pressed; OutOfBounds above 15 (R180, R182). -/
def execSkp (x : RegIdx) (s : State) : Result :=
  match keyOfByte (s.readV x) with
  | some k => .next (s.skipIf (s.keyPressed k))
  | none => raise s .outOfBounds

/-- ExA1 SKNP Vx: skip when key V[x] is released; OutOfBounds above 15 (R181, R182). -/
def execSknp (x : RegIdx) (s : State) : Result :=
  match keyOfByte (s.readV x) with
  | some k => .next (s.skipIf (!s.keyPressed k))
  | none => raise s .outOfBounds

/-- Fx0A LD Vx, K: with a key pressed V[x] <- the selected key and next; with none the cycle waits (R183, R184). -/
def execLdVxK (x : RegIdx) (s : State) : Result :=
  match s.selectedKey with
  | some k => .next (s.writeV x (byteOfKey k)).next
  | none => .next s.wait

/-- Fx07 LD Vx, DT (R185). -/
def execLdVxDt (x : RegIdx) (s : State) : Result := .next (s.writeV x s.dt).next

/-- Fx15 LD DT, Vx (R186). -/
def execLdDtVx (x : RegIdx) (s : State) : Result := .next (s.setDt (s.readV x)).next

/-- Fx18 LD ST, Vx (R187). -/
def execLdStVx (x : RegIdx) (s : State) : Result := .next (s.setSt (s.readV x)).next

/-- Cxkk RND Vx, kk: the random byte of this cycle AND kk (R188, decision D19). -/
def execRndVxKk (x : RegIdx) (kk : Byte) (s : State) : Result := .next (s.writeV x (s.rnd &&& kk)).next

end Sys2Proof.Machine
end

