-- ==== Sys2Proof/Machine/Skip.lean ====
section
/-! DEFINITION. Conditional skips on registers (41_skip.md). -/

namespace Sys2Proof.Machine

/-- 3xkk SE Vx, kk (R120). -/
def execSeVxKk (x : RegIdx) (kk : Byte) (s : State) : Result := .next (s.skipIf (s.readV x == kk))

/-- 4xkk SNE Vx, kk (R121). -/
def execSneVxKk (x : RegIdx) (kk : Byte) (s : State) : Result := .next (s.skipIf (s.readV x != kk))

/-- 5xy0 SE Vx, Vy (R122). -/
def execSeVxVy (x y : RegIdx) (s : State) : Result := .next (s.skipIf (s.readV x == s.readV y))

/-- 9xy0 SNE Vx, Vy (R123). -/
def execSneVxVy (x y : RegIdx) (s : State) : Result := .next (s.skipIf (s.readV x != s.readV y))

end Sys2Proof.Machine
end

