-- ==== Sys2Proof/Machine/Step.lean ====
section
/-! DEFINITION. One step of the machine: the host's next action (60_exceptions.md rules R200, R201). -/

namespace Sys2Proof.Machine

/-- `executeCycle`, its inputs presented: fetch, decode and execute exactly one instruction (R201 to R203). -/
def runCycle (s : State) : Result :=
  match s.fetchInstr with
  | .ok i => exec i s
  | .error e => raise s e

/-- One action of the host's schedule; a cycle with free inputs when nothing is listed (R200, log entry 2). -/
def step (s : State) : Host.Outcome State Fault Refusal :=
  match s.schedule with
  | [] => runCycle s.presentFree
  | .executeCycle latch rnd :: rest => runCycle ((s.takeAction rest).present latch rnd)
  | .tickTimers :: rest => tickTimers (s.takeAction rest)
  | .load bytes :: rest => loadProgram bytes (s.takeAction rest)

/-- A step of a host that goes on after an error, from the state the error left (R207, R210). -/
def stepThroughErrors (s : State) : State :=
  match step s with
  | .next t => t
  | .fault e => s.afterError e
  | .refused _ => s

/-- The state whose very next step is a cycle that fetches the instruction with bits w: its two bytes stand at PC, and
the host's next action is a cycle (no key pressed, random byte 0, as the vectors of 95_test_vectors.md have it). For the
word 0x00E0 the machine is one with CLS_ENABLED true, the only one where that word is an instruction (R86, log entries
6 and 22). At a PC where nothing can be fetched (4095 or more) memory stays as it is. -/
def State.withFetchWord (s : State) (nbits w : Nat) : State :=
  let word := BitVec.ofNat 16 (w % 2 ^ nbits)
  let placed := match s.storeRange s.pc.toNat (bytesOfWord word) with
    | .ok t => t
    | .error _ => s
  { placed with
    schedule := .executeCycle Latch.released 0 :: s.schedule
    cfg := { s.cfg with clsEnabled := s.cfg.clsEnabled || word == 0x00E0 } }

end Sys2Proof.Machine
end

