-- ==== Sys2Proof/Safety.lean ====
section
/-! DEFINITION. The terms claims are stated in: which instruction errs, moves PC, and writes what, as the spec's tables
list it (written from the tables, not from the meanings), and the invariants of a run. -/

namespace Sys2Proof.Machine

/-- The error an instruction that was fetched ends in, by the table of 60_exceptions.md rule R204 (the last line is the
model's own stop, log entry 8). -/
def errorOf (i : Instr) (s : State) : Option Fault :=
  match i with
  | .drw _ _ n => if 0 < n.val ∧ memSize ≤ s.i.toNat + n.val - 1 then some .outOfBounds else none
  | .ldBVx _ => if memSize ≤ s.i.toNat + 2 then some .outOfBounds else none
  | .ldMemVx x => if memSize ≤ s.i.toNat + x.val then some .outOfBounds else none
  | .ldVxMem x => if memSize ≤ s.i.toNat + x.val then some .outOfBounds else none
  | .skp x => if 15 < (s.readV x).toNat then some .outOfBounds else none
  | .sknp x => if 15 < (s.readV x).toNat then some .outOfBounds else none
  | .call _ => if s.stackFull = true then some .capacityExceeded else none
  | .ret =>
    if s.sp = s.cfg.spReset then some .capacityExceeded
    else if stackSlots ≤ s.sp.toNat then some .stackPointerOutsideStack else none
  | _ => none

/-- What PC holds after the instruction completes, or waits, by the table of 10_state.md rule R25. -/
def pcAfter (i : Instr) (s : State) : Word :=
  match i with
  | .jp nnn | .call nnn => nnn.setWidth 16
  | .jpV0 nnn => nnn.setWidth 16 + (s.readV 0).setWidth 16
  | .ret => (s.stack[s.sp.toNat]?).getD 0
  | .seVxKk x kk => if s.readV x = kk then s.pc + 4 else s.pc + 2
  | .sneVxKk x kk => if s.readV x = kk then s.pc + 2 else s.pc + 4
  | .seVxVy x y => if s.readV x = s.readV y then s.pc + 4 else s.pc + 2
  | .sneVxVy x y => if s.readV x = s.readV y then s.pc + 2 else s.pc + 4
  | .skp x => if s.latch[(s.readV x).toNat]? = some true then s.pc + 4 else s.pc + 2
  | .sknp x => if s.latch[(s.readV x).toNat]? = some true then s.pc + 2 else s.pc + 4
  | .ldVxK _ => if ∃ k : Key, s.latch[k] = true then s.pc + 2 else s.pc
  | _ => s.pc + 2

/-- The V registers an instruction may write, by the "written by" column of 10_state.md rule R20 and the table of rule
R22. -/
def writesReg (i : Instr) (r : RegIdx) : Bool :=
  match i with
  | .ldVxKk x _ | .addVxKk x _ | .rndVxKk x _ | .ldVxDt x | .ldVxK x => r == x
  | .ldVxVy x _ | .orVxVy x _ | .andVxVy x _ | .xorVxVy x _ => r == x
  | .addVxVy x _ | .subVxVy x _ | .shrVxVy x _ | .subnVxVy x _ | .shlVxVy x _ => r == x || r == 15
  | .drw _ _ _ => r == 15
  | .ldVxMem x => r ≤ x
  | _ => false

/-- Whether an instruction stores to the address: Fx33 to I to I+2, Fx55 to I to I+x, no other one anywhere
(20_memory.md rule R65). -/
def storesTo (i : Instr) (s : State) (a : Nat) : Bool :=
  match i with
  | .ldBVx _ => s.i.toNat ≤ a && a ≤ s.i.toNat + 2
  | .ldMemVx x => s.i.toNat ≤ a && a ≤ s.i.toNat + x.val
  | _ => false

/-- Annn, Fx1E and Fx29 write I (R20). -/
def writesI : Instr → Bool
  | .ldINnn _ | .addIVx _ | .ldFVx _ => true
  | _ => false

/-- Dxyn and 00E0 write FB (R20). -/
def writesFb : Instr → Bool
  | .drw _ _ _ | .cls => true
  | _ => false

/-- 2nnn and 00EE write SP (R20). -/
def writesSp : Instr → Bool
  | .call _ | .ret => true
  | _ => false

/-- 2nnn writes the stack (R20). -/
def writesStack : Instr → Bool
  | .call _ => true
  | _ => false

/-- Fx15 writes DT (R20). -/
def writesDt : Instr → Bool
  | .ldDtVx _ => true
  | _ => false

/-- Fx18 writes ST (R20). -/
def writesSt : Instr → Bool
  | .ldStVx _ => true
  | _ => false

/-- The invariant of every run: memory has its canonical form, the parameters stay inside the spec's limits, and no more
calls are outstanding than fit (R29). -/
def Inv (s : State) : Prop :=
  Memory.wf s.cfg s.mem = true ∧ s.cfg.wf = true ∧ s.callDepth ≤ s.cfg.stackUsableDepth

/-- PC and the return addresses stay where R26 says: PC at most 4350, every stack entry at most 4096. -/
def PcBounded (s : State) : Prop := s.pc.toNat ≤ 4350 ∧ ∀ k : Fin 16, s.stack[k].toNat ≤ 4096

end Sys2Proof.Machine
end

