-- ==== Sys2Proof/Certificates/Slice0/Obligations.lean ====
section
/-! DEFINITION. The statements for the provers. Each docstring names the rule of spec/ it formalises; where a clause
rests on a decision the spec marks as its own, or on a choice of the model, it says so. -/

open Sys2Proof Sys2Proof.Machine

/-! ## Encoding (30_encoding.md) -/

/-- R84, R88: the decoder gives back every well-formed instruction from its word, at every operand, whatever bytes
follow the word. -/
def Obligations.DecodeOfEncodeIsTheInstruction : Prop :=
  ∀ (clsEnabled : Bool) (i : Instr) (rest : List Byte), i.wellFormed clsEnabled = true →
    decodeWord clsEnabled (encode i) = .ok i ∧
    decodeBytes clsEnabled (bytesOfWord (encode i) ++ rest) = .ok (i, rest)

/-- R84: each word has one meaning, and every bit of it takes part: an instruction that decodes from a word encodes to
that very word, and it exists under the configuration. -/
def Obligations.EncodeOfDecodeIsTheWord : Prop :=
  ∀ (clsEnabled : Bool) (w : Word) (i : Instr), decodeWord clsEnabled w = .ok i →
    encode i = w ∧ i.wellFormed clsEnabled = true

/-- R84: a word is the instruction of the row it matches, no word matches two rows, and a word that matches no row (the
row of CLS counting only under CLS_ENABLED) is an unknown instruction. -/
def Obligations.OpcodeMapDecidesEveryWord : Prop :=
  ∀ (clsEnabled : Bool) (w : Word),
    (∀ i, decodeWord clsEnabled w = .ok i → ∃ row ∈ opcodeRows, row.1 = i.rowNumber ∧ matchesRow w row = true) ∧
    (∀ row ∈ opcodeRows, matchesRow w row = true → (row.1 = 1 → clsEnabled = true) →
      ∃ i, i.rowNumber = row.1 ∧ encode i = w ∧ decodeWord clsEnabled w = .ok i) ∧
    (∀ row ∈ opcodeRows, ∀ row' ∈ opcodeRows, matchesRow w row = true → matchesRow w row' = true → row = row') ∧
    ((∀ row ∈ opcodeRows, matchesRow w row = true → row.1 = 1 ∧ clsEnabled = false) →
      decodeWord clsEnabled w = .error (.unknownInstruction w))

/-- Words written out from R84's patterns decode to the instructions they stand for, one or more of each family (each
top nibble, R12), 0x00E0 is CLS under CLS_ENABLED and unknown without it (R86, decision D5, log entry 6), and 0x8128 is
unknown (R85, decision D7, log entry 14). -/
def Obligations.SampleWordsDecodeAsTheTableSays : Prop :=
  decodeWord false 0x00EE = .ok .ret ∧ decodeWord true 0x00E0 = .ok .cls ∧
  decodeWord false 0x00E0 = .error (.unknownInstruction 0x00E0) ∧
  decodeWord false 0x1ABC = .ok (.jp 0xABC) ∧ decodeWord false 0x2ABC = .ok (.call 0xABC) ∧
  decodeWord false 0x3A42 = .ok (.seVxKk 10 0x42) ∧ decodeWord false 0x4A42 = .ok (.sneVxKk 10 0x42) ∧
  decodeWord false 0x5120 = .ok (.seVxVy 1 2) ∧ decodeWord false 0x9120 = .ok (.sneVxVy 1 2) ∧
  decodeWord false 0x6A42 = .ok (.ldVxKk 10 0x42) ∧ decodeWord false 0xA123 = .ok (.ldINnn 0x123) ∧
  decodeWord false 0x7A05 = .ok (.addVxKk 10 0x05) ∧ decodeWord false 0x8126 = .ok (.shrVxVy 1 2) ∧
  decodeWord false 0xB300 = .ok (.jpV0 0x300) ∧ decodeWord false 0xC30F = .ok (.rndVxKk 3 0x0F) ∧
  decodeWord false 0xD125 = .ok (.drw 1 2 5) ∧ decodeWord false 0xE29E = .ok (.skp 2) ∧
  decodeWord false 0xF30A = .ok (.ldVxK 3) ∧ decodeWord false 0xF265 = .ok (.ldVxMem 2) ∧
  decodeWord false 0x8128 = .error (.unknownInstruction 0x8128)

/-! ## The memory controller and the framebuffer accessor (20_memory.md) -/

/-- R51, R52: the byte read and the byte write, bounds-checked, with no effect on any other byte. -/
def Obligations.ByteAccessIsBoundsChecked : Prop :=
  ∀ (s : State) (a : Nat) (b : Byte),
    (4096 ≤ a → s.memRead a = .error .outOfBounds ∧ s.memWrite a b = .error .outOfBounds) ∧
    (a < 4096 → s.memRead a = .ok (s.byteAt a) ∧
      ∃ t, s.memWrite a b = .ok t ∧ t.byteAt a = b ∧ (∀ a', a' ≠ a → t.byteAt a' = s.byteAt a') ∧
        t = { s with mem := t.mem })

/-- R53: the 16-bit fetch read is big-endian, and fails when addr + 1, not reduced, is 4096 or more. -/
def Obligations.FetchReadIsBigEndian : Prop :=
  ∀ (s : State) (a : Nat),
    (a + 1 < 4096 → ∃ w, s.memRead16 a = .ok w ∧
      w.toNat = (s.byteAt a).toNat * 256 + (s.byteAt (a + 1)).toNat) ∧
    (4096 ≤ a + 1 → s.memRead16 a = .error .outOfBounds)

/-- R59, R60, R61: clear makes every cell 0, set assigns the cell at the coordinates modulo 64 and 32 and no other, get
reads it back; none of them fails. -/
def Obligations.FramebufferAccessorWraps : Prop :=
  ∀ (fb : Framebuffer) (px py qx qy : Nat) (b : Bool),
    fbGet fbClear qx qy = false ∧
    fbGet fb px py = fbGet fb (px % 64) (py % 32) ∧
    fbGet (fbSet fb px py b) qx qy =
      (if qx % 64 = px % 64 ∧ qy % 32 = py % 32 then b else fbGet fb qx qy)

/-! ## The cycle (60_exceptions.md) -/

/-- R201 to R203: when the bytes at PC decode to an instruction, the step is that instruction's meaning at the state in
which the inputs of the cycle are presented; presenting them changes nothing but the inputs, the schedule and the
model's counter. -/
def Obligations.StepRunsTheDecodedInstruction : Prop :=
  ∀ (s s₁ : State) (i : Instr), s.cycleStart = some s₁ → s.pc.toNat + 1 < 4096 →
    decodeWord s.cfg.clsEnabled (wordOfBytes (s.byteAt s.pc.toNat) (s.byteAt (s.pc.toNat + 1))) = .ok i →
    step s = exec i s₁ ∧
    s₁ = { s with latch := s₁.latch, rnd := s₁.rnd, schedule := s.schedule.tail, freeCount := s₁.freeCount } ∧
    (∀ latch rnd rest, s.schedule = .executeCycle latch rnd :: rest → s₁.latch = latch ∧ s₁.rnd = rnd)

/-- R202, R203, R208 (the unknown words are R85's, decisions D6 and D7, log entry 14): a cycle at a PC of 4095 or more
ends in OutOfBounds whatever the bytes; below that, a word of no row (that of CLS counting only under CLS_ENABLED) ends
it in UnknownInstruction whatever the registers. -/
def Obligations.FetchAndDecodeErrorsComeFirst : Prop :=
  ∀ (s s₁ : State), s.cycleStart = some s₁ →
    (4095 ≤ s.pc.toNat → step s = .fault .outOfBounds) ∧
    (s.pc.toNat < 4095 →
      (∀ row ∈ opcodeRows,
        matchesRow (wordOfBytes (s.byteAt s.pc.toNat) (s.byteAt (s.pc.toNat + 1))) row = true →
        row.1 = 1 ∧ s.cfg.clsEnabled = false) →
      step s = .fault .unknownInstruction)

/-- R204: each of the 34 instructions ends in an error exactly on the condition the table lists for it, with the kind it
lists, and completes or waits otherwise; none is refused. The key index above 15 is decision D13, the stack's depth
decision D3, and the stop on an SP outside the stack the model's own (log entry 8). -/
def Obligations.EveryInstructionErrsExactlyAsTabled : Prop :=
  ∀ (i : Instr) (s : State),
    (∀ e, exec i s = .fault e ↔ errorOf i s = some e) ∧ ((∃ t, exec i s = .next t) ↔ errorOf i s = none)

/-- R220: no operation ever ends in InputUnavailable (decision D15). -/
def Obligations.NoStepRaisesInputUnavailable : Prop := ∀ s : State, step s ≠ .fault .inputUnavailable

/-- R210: an error is a stop. A cycle that ends in an error ends in the same error whatever the latch, the random byte,
the rest of the schedule, the counter, the report and the timers are; with the state an error leaves being as before
(decision D12, log entry 15), neither another cycle nor a tick ends it. -/
def Obligations.ErrorRepeatsWhateverTheInputs : Prop :=
  ∀ (s u : State) (e : Fault), s.cycleStart.isSome = true → step s = .fault e →
    u = { s with latch := u.latch, rnd := u.rnd, report := u.report, schedule := u.schedule,
                 freeCount := u.freeCount, dt := u.dt, st := u.st } →
    u.cycleStart.isSome = true → step u = .fault e

/-- R207, which is the spec's decision D12 (log entry 15), read through the model's afterError (log entry 4): when an
operation ends with an error, the state the host still holds is the state from before it: every piece
of the spec's state, the inputs and the parameters too; the action is taken and the error reported. -/
def Obligations.ErrorLeavesTheStateAsItWas : Prop :=
  ∀ (s : State) (e : Fault), step s = .fault e →
    stepThroughErrors s = { s with schedule := s.schedule.tail, freeCount := (stepThroughErrors s).freeCount,
                                   report := .error e }

/-! ## Control transfer (40_flow.md) -/

/-- R100: JP nnn sets PC to exactly nnn and changes nothing else; the word 1nnn is JP nnn. -/
def Obligations.JumpGoesToItsTarget : Prop :=
  ∀ (nnn : Literal12) (s : State),
    (∀ c, decodeWord c (0x1#4 ++ nnn) = .ok (.jp nnn)) ∧
    ∃ t, exec (.jp nnn) s = .next t ∧ t.pc.toNat = nnn.toNat ∧ t = { s with pc := t.pc, report := .done }

/-- R104: JP V0, nnn sets PC to the full sum nnn + V[0], not reduced modulo 4096 (decision D9), and changes nothing
else. -/
def Obligations.OffsetJumpGoesToTheSum : Prop :=
  ∀ (nnn : Literal12) (s : State),
    ∃ t, exec (.jpV0 nnn) s = .next t ∧ t.pc.toNat = nnn.toNat + (s.readV 0).toNat ∧
      t = { s with pc := t.pc, report := .done }

/-- R101, with the stack of decisions D3 and D4: below fifteen outstanding calls, CALL stores PC + 2 at the new top and
jumps, every other entry keeping its value; with SP at 15 or above it is CapacityExceeded. -/
def Obligations.CallPushesTheReturnAddress : Prop :=
  ∀ (nnn : Literal12) (s : State), s.cfg.spReset = 0 → s.cfg.stackUsableDepth = 15 →
    (s.sp.toNat < 15 →
      ∃ t, exec (.call nnn) s = .next t ∧ t.pc.toNat = nnn.toNat ∧ t.sp.toNat = s.sp.toNat + 1 ∧
        t.stack[s.sp.toNat + 1]? = some (s.pc + 2) ∧
        (∀ k : Fin 16, k.val ≠ s.sp.toNat + 1 → t.stack[k] = s.stack[k]) ∧
        t = { s with pc := t.pc, sp := t.sp, stack := t.stack, report := .done }) ∧
    (15 ≤ s.sp.toNat → exec (.call nnn) s = .fault .capacityExceeded)

/-- R102, with the empty state of decision D3 (log entry 8) and the entry of decision D4 (log entry 9), which PC takes
with no advance: RET sets PC to stack[SP] and lowers SP, clearing nothing; with SP = 0 it is CapacityExceeded. An SP
above 15, which no run reaches, stops (the model's choice, log entry 8). -/
def Obligations.ReturnPopsTheReturnAddress : Prop :=
  ∀ (s : State), s.cfg.spReset = 0 →
    (∀ (hlo : 1 ≤ s.sp.toNat) (hhi : s.sp.toNat ≤ 15),
      ∃ t, exec .ret s = .next t ∧ t.pc = s.stack[s.sp.toNat] ∧ t.sp.toNat + 1 = s.sp.toNat ∧
        t = { s with pc := t.pc, sp := t.sp, report := .done }) ∧
    (s.sp.toNat = 0 → exec .ret s = .fault .capacityExceeded) ∧
    (16 ≤ s.sp.toNat → exec .ret s = .fault .stackPointerOutsideStack)

/-- R103 (an entry holds the address after the call: decision D4, log entry 9): a RET executed with the SP and the stack
the CALL left resumes after the CALL, with the SP from before it, under every configuration inside the spec's limits
(Config.wf). -/
def Obligations.CallThenReturnResumesAfterTheCall : Prop :=
  ∀ (nnn : Literal12) (s t u : State), s.cfg.wf = true → exec (.call nnn) s = .next t →
    u.sp = t.sp → u.stack = t.stack → u.cfg = t.cfg →
    ∃ w, exec .ret u = .next w ∧ w.pc = s.pc + 2 ∧ w.sp = s.sp

/-! ## Skips (41_skip.md) -/

/-- R120 to R123: the four skips on registers: PC + 4 when the condition holds, PC + 2 when it does not, nothing else
changed; with their words, and 5xyn and 9xyn with n not 0 unknown. -/
def Obligations.RegisterSkipsCompareAndSkip : Prop :=
  ∀ (x y : RegIdx) (kk : Byte) (s : State),
    (∀ c, decodeWord c (0x3#4 ++ bitsOfReg x ++ kk) = .ok (.seVxKk x kk) ∧
      decodeWord c (0x4#4 ++ bitsOfReg x ++ kk) = .ok (.sneVxKk x kk) ∧
      decodeWord c (0x5#4 ++ bitsOfReg x ++ bitsOfReg y ++ 0x0#4) = .ok (.seVxVy x y) ∧
      decodeWord c (0x9#4 ++ bitsOfReg x ++ bitsOfReg y ++ 0x0#4) = .ok (.sneVxVy x y) ∧
      ∀ n : BitVec 4, n ≠ 0 →
        decodeWord c (0x5#4 ++ bitsOfReg x ++ bitsOfReg y ++ n)
          = .error (.unknownInstruction (0x5#4 ++ bitsOfReg x ++ bitsOfReg y ++ n)) ∧
        decodeWord c (0x9#4 ++ bitsOfReg x ++ bitsOfReg y ++ n)
          = .error (.unknownInstruction (0x9#4 ++ bitsOfReg x ++ bitsOfReg y ++ n))) ∧
    exec (.seVxKk x kk) s
      = .next { s with pc := (if s.readV x = kk then s.pc + 4 else s.pc + 2), report := .done } ∧
    exec (.sneVxKk x kk) s
      = .next { s with pc := (if s.readV x ≠ kk then s.pc + 4 else s.pc + 2), report := .done } ∧
    exec (.seVxVy x y) s
      = .next { s with pc := (if s.readV x = s.readV y then s.pc + 4 else s.pc + 2), report := .done } ∧
    exec (.sneVxVy x y) s
      = .next { s with pc := (if s.readV x ≠ s.readV y then s.pc + 4 else s.pc + 2), report := .done }

/-! ## Register loads and the ALU (42_alu.md) -/

/-- R130, R131, R132: the destination gets the immediate, the sum modulo 256, or the other register; VF gets no carry;
every other register and everything but PC keeps its value; with their words. -/
def Obligations.LoadsAndImmediateAdd : Prop :=
  ∀ (x y : RegIdx) (kk : Byte) (s : State),
    (∀ c, decodeWord c (0x6#4 ++ bitsOfReg x ++ kk) = .ok (.ldVxKk x kk) ∧
      decodeWord c (0x7#4 ++ bitsOfReg x ++ kk) = .ok (.addVxKk x kk) ∧
      decodeWord c (0x8#4 ++ bitsOfReg x ++ bitsOfReg y ++ 0x0#4) = .ok (.ldVxVy x y)) ∧
    (∃ t, exec (.ldVxKk x kk) s = .next t ∧ t.readV x = kk ∧ (∀ r, r ≠ x → t.readV r = s.readV r) ∧
      t = { s with v := t.v, pc := s.pc + 2, report := .done }) ∧
    (∃ t, exec (.addVxKk x kk) s = .next t ∧ (t.readV x).toNat = ((s.readV x).toNat + kk.toNat) % 256 ∧
      (∀ r, r ≠ x → t.readV r = s.readV r) ∧ t = { s with v := t.v, pc := s.pc + 2, report := .done }) ∧
    (∃ t, exec (.ldVxVy x y) s = .next t ∧ t.readV x = s.readV y ∧ (∀ r, r ≠ x → t.readV r = s.readV r) ∧
      t = { s with v := t.v, pc := s.pc + 2, report := .done })

/-- R133, R134, R135: OR, AND and XOR are bitwise, bit by bit; VF is not written as a flag (decision D30); every other
register and everything but PC keeps its value. -/
def Obligations.LogicIsBitwise : Prop :=
  ∀ (x y : RegIdx) (s : State),
    (∃ t, exec (.orVxVy x y) s = .next t ∧
      (∀ k, (t.readV x).getLsbD k = ((s.readV x).getLsbD k || (s.readV y).getLsbD k)) ∧
      (∀ r, r ≠ x → t.readV r = s.readV r) ∧ t = { s with v := t.v, pc := s.pc + 2, report := .done }) ∧
    (∃ t, exec (.andVxVy x y) s = .next t ∧
      (∀ k, (t.readV x).getLsbD k = ((s.readV x).getLsbD k && (s.readV y).getLsbD k)) ∧
      (∀ r, r ≠ x → t.readV r = s.readV r) ∧ t = { s with v := t.v, pc := s.pc + 2, report := .done }) ∧
    (∃ t, exec (.xorVxVy x y) s = .next t ∧
      (∀ k, (t.readV x).getLsbD k = ((s.readV x).getLsbD k ^^ (s.readV y).getLsbD k)) ∧
      (∀ r, r ≠ x → t.readV r = s.readV r) ∧ t = { s with v := t.v, pc := s.pc + 2, report := .done })

/-- R136 to R140: the five flag-writing instructions with a destination that is not VF, under either write order: the
result modulo 256 and the flag, computed from the operands as the cycle began with them; that this holds of the old VF
too, with y = 15, is R141's order of reads and writes, decision D8 (log entry 11); every register but the destination
and VF, and everything but PC, keeps its value. -/
def Obligations.FlaggedAluResultAndFlag : Prop :=
  ∀ (x y : RegIdx) (s : State), x ≠ 15 →
    (∃ t, exec (.addVxVy x y) s = .next t ∧ (t.readV x).toNat = ((s.readV x).toNat + (s.readV y).toNat) % 256 ∧
      t.readV 15 = (if (s.readV x).toNat + (s.readV y).toNat > 255 then 1 else 0) ∧
      (∀ r, r ≠ x → r ≠ 15 → t.readV r = s.readV r) ∧ t = { s with v := t.v, pc := s.pc + 2, report := .done }) ∧
    (∃ t, exec (.subVxVy x y) s = .next t ∧
      (t.readV x).toNat = ((s.readV x).toNat + 256 - (s.readV y).toNat) % 256 ∧
      t.readV 15 = (if (s.readV y).toNat ≤ (s.readV x).toNat then 1 else 0) ∧
      (∀ r, r ≠ x → r ≠ 15 → t.readV r = s.readV r) ∧ t = { s with v := t.v, pc := s.pc + 2, report := .done }) ∧
    (∃ t, exec (.shrVxVy x y) s = .next t ∧ (t.readV x).toNat = (s.readV y).toNat / 2 ∧
      (t.readV 15).toNat = (s.readV y).toNat % 2 ∧
      (∀ r, r ≠ x → r ≠ 15 → t.readV r = s.readV r) ∧ t = { s with v := t.v, pc := s.pc + 2, report := .done }) ∧
    (∃ t, exec (.subnVxVy x y) s = .next t ∧
      (t.readV x).toNat = ((s.readV y).toNat + 256 - (s.readV x).toNat) % 256 ∧
      t.readV 15 = (if (s.readV x).toNat ≤ (s.readV y).toNat then 1 else 0) ∧
      (∀ r, r ≠ x → r ≠ 15 → t.readV r = s.readV r) ∧ t = { s with v := t.v, pc := s.pc + 2, report := .done }) ∧
    (∃ t, exec (.shlVxVy x y) s = .next t ∧ (t.readV x).toNat = (s.readV y).toNat * 2 % 256 ∧
      (t.readV 15).toNat = (s.readV y).toNat / 128 ∧
      (∀ r, r ≠ x → r ≠ 15 → t.readV r = s.readV r) ∧ t = { s with v := t.v, pc := s.pc + 2, report := .done })

/-- R141 (decision D8): the five flag-writing instructions with VF as destination, the flag written last: VF holds the
flag, the result is lost, and every other register keeps its value. -/
def Obligations.FlagWinsOverResultInVf : Prop :=
  ∀ (y : RegIdx) (s : State), s.cfg.vfWriteOrder = .flagLast →
    (∃ t, exec (.addVxVy 15 y) s = .next t ∧
      t.readV 15 = (if (s.readV 15).toNat + (s.readV y).toNat > 255 then 1 else 0) ∧
      (∀ r, r ≠ 15 → t.readV r = s.readV r) ∧ t = { s with v := t.v, pc := s.pc + 2, report := .done }) ∧
    (∃ t, exec (.subVxVy 15 y) s = .next t ∧
      t.readV 15 = (if (s.readV y).toNat ≤ (s.readV 15).toNat then 1 else 0) ∧
      (∀ r, r ≠ 15 → t.readV r = s.readV r) ∧ t = { s with v := t.v, pc := s.pc + 2, report := .done }) ∧
    (∃ t, exec (.shrVxVy 15 y) s = .next t ∧ (t.readV 15).toNat = (s.readV y).toNat % 2 ∧
      (∀ r, r ≠ 15 → t.readV r = s.readV r) ∧ t = { s with v := t.v, pc := s.pc + 2, report := .done }) ∧
    (∃ t, exec (.subnVxVy 15 y) s = .next t ∧
      t.readV 15 = (if (s.readV 15).toNat ≤ (s.readV y).toNat then 1 else 0) ∧
      (∀ r, r ≠ 15 → t.readV r = s.readV r) ∧ t = { s with v := t.v, pc := s.pc + 2, report := .done }) ∧
    (∃ t, exec (.shlVxVy 15 y) s = .next t ∧ (t.readV 15).toNat = (s.readV y).toNat / 128 ∧
      (∀ r, r ≠ 15 → t.readV r = s.readV r) ∧ t = { s with v := t.v, pc := s.pc + 2, report := .done })

/-- R141 (the parameter VF_WRITE_ORDER, decision D8): the same five instructions on a machine that writes the result
last: VF holds the result and the flag is lost. -/
def Obligations.ResultWinsOverFlagWhenWrittenLast : Prop :=
  ∀ (y : RegIdx) (s : State), s.cfg.vfWriteOrder = .resultLast →
    (∃ t, exec (.addVxVy 15 y) s = .next t ∧ (t.readV 15).toNat = ((s.readV 15).toNat + (s.readV y).toNat) % 256 ∧
      (∀ r, r ≠ 15 → t.readV r = s.readV r) ∧ t = { s with v := t.v, pc := s.pc + 2, report := .done }) ∧
    (∃ t, exec (.subVxVy 15 y) s = .next t ∧
      (t.readV 15).toNat = ((s.readV 15).toNat + 256 - (s.readV y).toNat) % 256 ∧
      (∀ r, r ≠ 15 → t.readV r = s.readV r) ∧ t = { s with v := t.v, pc := s.pc + 2, report := .done }) ∧
    (∃ t, exec (.shrVxVy 15 y) s = .next t ∧ (t.readV 15).toNat = (s.readV y).toNat / 2 ∧
      (∀ r, r ≠ 15 → t.readV r = s.readV r) ∧ t = { s with v := t.v, pc := s.pc + 2, report := .done }) ∧
    (∃ t, exec (.subnVxVy 15 y) s = .next t ∧
      (t.readV 15).toNat = ((s.readV y).toNat + 256 - (s.readV 15).toNat) % 256 ∧
      (∀ r, r ≠ 15 → t.readV r = s.readV r) ∧ t = { s with v := t.v, pc := s.pc + 2, report := .done }) ∧
    (∃ t, exec (.shlVxVy 15 y) s = .next t ∧ (t.readV 15).toNat = (s.readV y).toNat * 2 % 256 ∧
      (∀ r, r ≠ 15 → t.readV r = s.readV r) ∧ t = { s with v := t.v, pc := s.pc + 2, report := .done })

/-! ## Index register and memory (43_index_memory.md) -/

/-- R150: LD I, nnn sets I to nnn and changes nothing else but PC; the word Annn is LD I, nnn. -/
def Obligations.LoadIndexSetsI : Prop :=
  ∀ (nnn : Literal12) (s : State),
    (∀ c, decodeWord c (0xA#4 ++ nnn) = .ok (.ldINnn nnn)) ∧
    ∃ t, exec (.ldINnn nnn) s = .next t ∧ t.i.toNat = nnn.toNat ∧
      t = { s with i := t.i, pc := s.pc + 2, report := .done }

/-- R151 (decision D10) and R152 (decision D16, inside the limits of Config.wf): ADD I, Vx adds modulo 65536, LD F, Vx
takes the glyph address of the low nibble; neither changes anything else but PC. -/
def Obligations.AddIndexAndGlyphAddress : Prop :=
  ∀ (x : RegIdx) (s : State),
    (∃ t, exec (.addIVx x) s = .next t ∧ t.i.toNat = (s.i.toNat + (s.readV x).toNat) % 65536 ∧
      t = { s with i := t.i, pc := s.pc + 2, report := .done }) ∧
    (s.cfg.wf = true → ∃ t, exec (.ldFVx x) s = .next t ∧
      t.i.toNat = s.cfg.fontBase + s.cfg.glyphStride * ((s.readV x).toNat % 16) ∧
      t = { s with i := t.i, pc := s.pc + 2, report := .done })

/-- R154 (that an error leaves the whole state as before is R157 and R207, decision D12, log entry 15): LD B, Vx stores
hundreds, tens and units at I, I+1, I+2 and changes no other byte, register or state but PC; when I + 2 is 4096 or more
it is OutOfBounds, and the state the error leaves is as before; the word Fx33 is LD B, Vx. -/
def Obligations.DecimalStoreWritesThreeDigits : Prop :=
  ∀ (x : RegIdx) (s : State),
    (∀ c, decodeWord c (0xF#4 ++ bitsOfReg x ++ 0x33#8) = .ok (.ldBVx x)) ∧
    (s.i.toNat + 2 < 4096 → ∃ t, exec (.ldBVx x) s = .next t ∧
      (t.byteAt s.i.toNat).toNat = (s.readV x).toNat / 100 ∧
      (t.byteAt (s.i.toNat + 1)).toNat = (s.readV x).toNat / 10 % 10 ∧
      (t.byteAt (s.i.toNat + 2)).toNat = (s.readV x).toNat % 10 ∧
      (∀ a, a < s.i.toNat ∨ s.i.toNat + 2 < a → t.byteAt a = s.byteAt a) ∧
      t = { s with mem := t.mem, pc := s.pc + 2, report := .done }) ∧
    (4096 ≤ s.i.toNat + 2 → exec (.ldBVx x) s = .fault .outOfBounds ∧
      s.afterError .outOfBounds = { s with schedule := s.schedule.tail, freeCount := (s.afterError .outOfBounds).freeCount,
                                           report := .error .outOfBounds })

/-- R155 (I unchanged by decision D17, all or nothing by decision D12): LD [I], Vx stores V[0] to V[x] at I to I+x and
changes no other byte, register or state but PC; past the end of memory it is OutOfBounds. -/
def Obligations.RegisterDumpStoresThroughX : Prop :=
  ∀ (x : RegIdx) (s : State),
    (s.i.toNat + x.val < 4096 → ∃ t, exec (.ldMemVx x) s = .next t ∧
      (∀ k : RegIdx, k ≤ x → t.byteAt (s.i.toNat + k.val) = s.readV k) ∧
      (∀ a, a < s.i.toNat ∨ s.i.toNat + x.val < a → t.byteAt a = s.byteAt a) ∧
      t = { s with mem := t.mem, pc := s.pc + 2, report := .done }) ∧
    (4096 ≤ s.i.toNat + x.val → exec (.ldMemVx x) s = .fault .outOfBounds)

/-- R156 (I unchanged by decision D17, all or nothing by decision D12): LD Vx, [I] loads V[0] to V[x] from I to I+x; the
registers above x, memory and all else but PC keep their values; past the end of memory it is OutOfBounds. -/
def Obligations.RegisterLoadReadsThroughX : Prop :=
  ∀ (x : RegIdx) (s : State),
    (s.i.toNat + x.val < 4096 → ∃ t, exec (.ldVxMem x) s = .next t ∧
      (∀ k : RegIdx, k ≤ x → t.readV k = s.byteAt (s.i.toNat + k.val)) ∧
      (∀ k : RegIdx, x < k → t.readV k = s.readV k) ∧
      t = { s with v := t.v, pc := s.pc + 2, report := .done }) ∧
    (4096 ≤ s.i.toNat + x.val → exec (.ldVxMem x) s = .fault .outOfBounds)

/-- R155, R156: a register load through x, of the memory a register dump through x left and at the same I, restores the
dumped registers, whatever the registers hold in between. -/
def Obligations.DumpThenLoadRestoresTheRegisters : Prop :=
  ∀ (x : RegIdx) (s t u : State), exec (.ldMemVx x) s = .next t →
    u.mem = t.mem → u.cfg = t.cfg → u.i = s.i →
    ∃ w, exec (.ldVxMem x) u = .next w ∧ (∀ k : RegIdx, k ≤ x → w.readV k = s.readV k) ∧
      ∀ k : RegIdx, x < k → w.readV k = u.readV k

/-- R63, R69: two bytes a register dump stores where the next fetch reads are the next word, the lower address its high
byte; so is an instruction it overwrites. -/
def Obligations.StoredBytesAreTheNextWordFetched : Prop :=
  ∀ (x : RegIdx) (s t : State), 1 ≤ x.val → exec (.ldMemVx x) s = .next t → t.pc = s.i →
    t.memRead16 t.pc.toNat = .ok (s.readV 0 ++ s.readV 1)

/-! ## The framebuffer (44_draw.md) -/

/-- R171 (that n = 0 completes and clears VF wherever I points is decision D27, log entry 18; that an error leaves the
whole state as before is decision D12, log entry 15): DRW XORs each bit of the n bytes at I, most significant first,
onto the cell at (V[x] + bit, V[y] + row) modulo 64 and 32, touches no other cell, sets VF to 1 exactly when a cell that
was 1 before the draw meets a sprite bit of 1, and changes nothing else but PC; when a sprite byte does not exist it is
OutOfBounds, and the state the error leaves is as before; the word Dxyn is DRW Vx, Vy, n. -/
def Obligations.DrawXorsTheSpriteOntoTheGrid : Prop :=
  ∀ (x y : RegIdx) (n : Fin 16) (s : State),
    (∀ c, decodeWord c (0xD#4 ++ bitsOfReg x ++ bitsOfReg y ++ bitsOfReg n) = .ok (.drw x y n)) ∧
    (n.val = 0 ∨ s.i.toNat + n.val - 1 < 4096 → ∃ t, exec (.drw x y n) s = .next t ∧
      (∀ row bit, row < n.val → bit < 8 →
        fbGet t.fb ((s.readV x).toNat + bit) ((s.readV y).toNat + row)
          = (fbGet s.fb ((s.readV x).toNat + bit) ((s.readV y).toNat + row)
              ^^ (s.byteAt (s.i.toNat + row)).getLsbD (7 - bit))) ∧
      (∀ cx cy, (∀ row bit, row < n.val → bit < 8 →
          ¬(((s.readV x).toNat + bit) % 64 = cx % 64 ∧ ((s.readV y).toNat + row) % 32 = cy % 32)) →
        fbGet t.fb cx cy = fbGet s.fb cx cy) ∧
      ((∃ row bit, row < n.val ∧ bit < 8 ∧ (s.byteAt (s.i.toNat + row)).getLsbD (7 - bit) = true ∧
          fbGet s.fb ((s.readV x).toNat + bit) ((s.readV y).toNat + row) = true) → t.readV 15 = 1) ∧
      ((¬∃ row bit, row < n.val ∧ bit < 8 ∧ (s.byteAt (s.i.toNat + row)).getLsbD (7 - bit) = true ∧
          fbGet s.fb ((s.readV x).toNat + bit) ((s.readV y).toNat + row) = true) → t.readV 15 = 0) ∧
      (∀ r, r ≠ 15 → t.readV r = s.readV r) ∧
      t = { s with v := t.v, fb := t.fb, pc := s.pc + 2, report := .done }) ∧
    (0 < n.val ∧ 4096 ≤ s.i.toNat + n.val - 1 → exec (.drw x y n) s = .fault .outOfBounds ∧
      s.afterError .outOfBounds = { s with schedule := s.schedule.tail, freeCount := (s.afterError .outOfBounds).freeCount,
                                           report := .error .outOfBounds })

/-- R172(e) (with n = 0, which draws nothing, by decision D27, log entry 18): drawing the same sprite again at the same
place restores the framebuffer; and when the sprite has a bit of 1 and every cell under its bits of 1 is 0 before the
first draw, the first draw leaves VF at 0 and the second leaves it at 1. -/
def Obligations.DrawingTwiceRestoresTheFramebuffer : Prop :=
  ∀ (x y : RegIdx) (n : Fin 16) (s t u : State), exec (.drw x y n) s = .next t →
    u.fb = t.fb → u.readV x = s.readV x → u.readV y = s.readV y → u.i = s.i →
    (∀ row, row < n.val → u.byteAt (s.i.toNat + row) = s.byteAt (s.i.toNat + row)) →
    ∃ w, exec (.drw x y n) u = .next w ∧ w.fb = s.fb ∧
      ((∃ row bit, row < n.val ∧ bit < 8 ∧ (s.byteAt (s.i.toNat + row)).getLsbD (7 - bit) = true) →
        (∀ row bit, row < n.val → bit < 8 → (s.byteAt (s.i.toNat + row)).getLsbD (7 - bit) = true →
          fbGet s.fb ((s.readV x).toNat + bit) ((s.readV y).toNat + row) = false) →
        t.readV 15 = 0 ∧ w.readV 15 = 1)

/-- R173 (the word by decision D5): CLS turns every cell off and changes nothing else but PC; the word 0x00E0 is CLS
under CLS_ENABLED and unknown without it. -/
def Obligations.ClearScreenClearsEveryCell : Prop :=
  decodeWord true 0x00E0 = .ok .cls ∧ decodeWord false 0x00E0 = .error (.unknownInstruction 0x00E0) ∧
  ∀ s : State, ∃ t, exec .cls s = .next t ∧ (∀ cx cy, fbGet t.fb cx cy = false) ∧
    t = { s with fb := t.fb, pc := s.pc + 2, report := .done }

/-! ## Keys, timers, the random byte (45_input_timer_random.md) -/

/-- R180, R181, R182: SKP and SKNP test the latch of this very cycle at key V[x] and change nothing but PC; a key index
above 15 is OutOfBounds (decision D13). -/
def Obligations.KeySkipsTestTheLatch : Prop :=
  ∀ (x : RegIdx) (s : State),
    (∀ k : Key, (s.readV x).toNat = k.val →
      exec (.skp x) s = .next { s with pc := (if s.latch[k] = true then s.pc + 4 else s.pc + 2), report := .done } ∧
      exec (.sknp x) s
        = .next { s with pc := (if s.latch[k] = true then s.pc + 2 else s.pc + 4), report := .done }) ∧
    (15 < (s.readV x).toNat → exec (.skp x) s = .fault .outOfBounds ∧ exec (.sknp x) s = .fault .outOfBounds)

/-- R183, R184 (decision D14, log entry 12): with a key pressed LD Vx, K stores the index of a pressed key and advances,
and with KEY_SELECT at the value R7 takes it is the lowest pressed one; with none pressed the cycle waits and changes
nothing but the report. -/
def Obligations.WaitForKeyCompletesOnAPressedKey : Prop :=
  ∀ (x : RegIdx) (s : State),
    ((∃ k : Key, s.latch[k] = true) →
      ∃ t, ∃ k : Key, exec (.ldVxK x) s = .next t ∧ s.latch[k] = true ∧ (t.readV x).toNat = k.val ∧
        (s.cfg.keySelect = [] → ∀ j : Key, s.latch[j] = true → k ≤ j) ∧
        (∀ r, r ≠ x → t.readV r = s.readV r) ∧ t = { s with v := t.v, pc := s.pc + 2, report := .done }) ∧
    ((∀ k : Key, s.latch[k] = false) → exec (.ldVxK x) s = .next { s with report := .waiting })

/-- R7, R183, R184(b): KEY_SELECT may be any function of the latch. For every choice of a key for each latch there is a
value of the parameter with which LD Vx, K stores the chosen key whenever that key is pressed. That the machine has a
function of the latch at all is the form decision D14 gives the open choice, and the table of it is the model's form
(log entry 12). -/
def Obligations.AnyKeyChoiceIsAConfiguration : Prop :=
  ∀ choose : Latch → Key, ∃ table : List (Latch × Key), ∀ (x : RegIdx) (s : State),
    s.cfg.keySelect = table → s.latch[choose s.latch] = true →
    ∃ t, exec (.ldVxK x) s = .next t ∧ (t.readV x).toNat = (choose s.latch).val ∧
      t = { s with v := t.v, pc := s.pc + 2, report := .done }

/-- R185, R186, R187: the three timer moves, each changing its destination and PC and nothing else; with their words. -/
def Obligations.TimerMoves : Prop :=
  ∀ (x : RegIdx) (s : State),
    (∀ c, decodeWord c (0xF#4 ++ bitsOfReg x ++ 0x07#8) = .ok (.ldVxDt x) ∧
      decodeWord c (0xF#4 ++ bitsOfReg x ++ 0x15#8) = .ok (.ldDtVx x) ∧
      decodeWord c (0xF#4 ++ bitsOfReg x ++ 0x18#8) = .ok (.ldStVx x)) ∧
    (∃ t, exec (.ldVxDt x) s = .next t ∧ t.readV x = s.dt ∧ (∀ r, r ≠ x → t.readV r = s.readV r) ∧
      t = { s with v := t.v, pc := s.pc + 2, report := .done }) ∧
    exec (.ldDtVx x) s = .next { s with dt := s.readV x, pc := s.pc + 2, report := .done } ∧
    exec (.ldStVx x) s = .next { s with st := s.readV x, pc := s.pc + 2, report := .done }

/-- R188 (the byte an input of the cycle, decision D19): RND stores the cycle's random byte AND kk, with no bit outside
kk, the old V[x] not entering, and changes nothing else but PC. -/
def Obligations.RandomByteIsMasked : Prop :=
  ∀ (x : RegIdx) (kk : Byte) (s : State),
    ∃ t, exec (.rndVxKk x kk) s = .next t ∧
      (∀ k, (t.readV x).getLsbD k = (s.rnd.getLsbD k && kk.getLsbD k)) ∧
      (∀ r, r ≠ x → t.readV r = s.readV r) ∧ t = { s with v := t.v, pc := s.pc + 2, report := .done }

/-! ## The host's operations (20_memory.md, 60_exceptions.md, 70_reset_and_hazards.md) -/

/-- R214: a tick lowers each timer that is above 0 by one, leaves one at 0 there, cannot fail, and changes nothing else
of the core. -/
def Obligations.TickLowersEachTimer : Prop :=
  ∀ (s : State) (rest : List HostAction), s.schedule = .tickTimers :: rest →
    ∃ t, step s = .next t ∧ t.dt.toNat = s.dt.toNat - 1 ∧ t.st.toNat = s.st.toNat - 1 ∧
      t = { s with dt := t.dt, st := t.st, schedule := rest, report := .done }

/-- R215: after k ticks and nothing else a timer of value v is max(v - k, 0). -/
def Obligations.TimersAfterManyTicks : Prop :=
  ∀ (k : Nat) (s : State) (rest : List HostAction),
    s.schedule = List.replicate k .tickTimers ++ rest →
    ∃ t, Host.Core.run Sys2Proof.core k s = .next t ∧ t.dt.toNat = s.dt.toNat - k ∧ t.st.toNat = s.st.toNat - k ∧
      t = { s with dt := t.dt, st := t.st, schedule := rest, report := t.report }

/-- R56, R57 (that this holds of a load at any state, a second one or one after cycles, is decision D25, log entry 23;
the state the error leaves is read through afterError, log entry 4): a load of at most 3584 bytes puts byte j at 0x200 +
j and changes no other byte and nothing else; a longer one is CapacityExceeded, and memory is as before. -/
def Obligations.LoadCopiesTheProgram : Prop :=
  ∀ (s : State) (bytes : List Byte) (rest : List HostAction), s.schedule = .load bytes :: rest →
    (bytes.length ≤ 3584 → ∃ t, step s = .next t ∧
      (∀ j (h : j < bytes.length), t.byteAt (0x200 + j) = bytes[j]) ∧
      (∀ a, a < 0x200 ∨ 0x200 + bytes.length ≤ a → t.byteAt a = s.byteAt a) ∧
      t = { s with mem := t.mem, schedule := rest, report := .done }) ∧
    (3584 < bytes.length → step s = .fault .capacityExceeded ∧
      s.afterError .capacityExceeded = { s with schedule := rest, report := .error .capacityExceeded })

/-- R41, R230: what construction leaves. PC, memory outside the glyph table and the framebuffer are the source's values;
the zeros of V, I, the stack, DT and ST, and SP at the empty value, are decision D2 (log entry 7), the glyph table
decision D16 (log entry 10). -/
def Obligations.ConstructionLeavesTheResetState : Prop :=
  (∀ c : Config,
    (State.construct c).pc = 0x200 ∧ (∀ r, (State.construct c).readV r = 0) ∧ (State.construct c).i = 0 ∧
    (State.construct c).sp = c.spReset ∧ (∀ k : Fin 16, (State.construct c).stack[k] = 0) ∧
    (State.construct c).dt = 0 ∧ (State.construct c).st = 0 ∧
    (∀ cx cy, fbGet (State.construct c).fb cx cy = false) ∧
    (∀ k (h : k < 80), (State.construct c).byteAt (c.fontBase + k) = c.fontTable[k]) ∧
    (∀ a, a < c.fontBase ∨ c.fontBase + 80 ≤ a → (State.construct c).byteAt a = 0) ∧
    (State.construct c).cfg = c) ∧
  State.reset = State.construct Config.taken

/-- R232 (the word 0x0000 is unknown by decision D6, log entry 14; the memory read is what construction left, log
entries 10 and 21): with no program loaded the first cycle, whatever its inputs, ends in UnknownInstruction, under every
configuration inside the spec's limits. -/
def Obligations.FirstCycleWithoutAProgramIsUnknown : Prop :=
  ∀ (c : Config) (sched : List HostAction), c.wf = true →
    { State.construct c with schedule := sched }.cycleStart.isSome = true →
    step { State.construct c with schedule := sched } = .fault .unknownInstruction

/-- R232: after construction and the load of a program, the first cycle runs the program's first instruction. -/
def Obligations.LoadedProgramRunsFromItsFirstWord : Prop :=
  ∀ (c : Config) (i : Instr) (tail : List Byte) (latch : Latch) (rnd : Byte) (rest : List HostAction),
    i.wellFormed c.clsEnabled = true → tail.length ≤ 3582 →
    ∃ t, step { State.construct c with
          schedule := .load (bytesOfWord (encode i) ++ tail) :: .executeCycle latch rnd :: rest } = .next t ∧
      step t = exec i { t with latch := latch, rnd := rnd, schedule := rest }

/-! ## What every instruction leaves alone -/

/-- R25: every instruction that completes, and Fx0A when it waits, gives PC exactly the value of its row of the table of
PC updates. -/
def Obligations.ProgramCounterMovesAsTabled : Prop :=
  ∀ (i : Instr) (s t : State), exec i s = .next t → t.pc = pcAfter i s

/-- R20, R22: no instruction writes a V register but its destination, VF where it reports a flag, and V[0] to V[x] for
LD Vx, [I]. -/
def Obligations.RegistersChangeOnlyAsDestinations : Prop :=
  ∀ (i : Instr) (s t : State) (r : RegIdx), exec i s = .next t → writesReg i r = false → t.readV r = s.readV r

/-- R65: no instruction changes a byte of memory but the three bytes at I of LD B, Vx and the x + 1 bytes at I of
LD [I], Vx; every other address reads as before. -/
def Obligations.MemoryChangesOnlyWhereStored : Prop :=
  ∀ (i : Instr) (s t : State) (a : Nat), exec i s = .next t → storesTo i s a = false → t.byteAt a = s.byteAt a

/-- R20: I, SP, the stack, DT, ST and FB are written only by the instructions the table lists; a cycle never writes its
inputs (R37, R38), and the schedule, the counter and the configuration are no instruction's to write. -/
def Obligations.SpecialStateChangesOnlyAsListed : Prop :=
  ∀ (i : Instr) (s t : State), exec i s = .next t →
    (writesI i = false → t.i = s.i) ∧ (writesSp i = false → t.sp = s.sp) ∧
    (writesStack i = false → t.stack = s.stack) ∧ (writesDt i = false → t.dt = s.dt) ∧
    (writesSt i = false → t.st = s.st) ∧ (writesFb i = false → t.fb = s.fb) ∧
    t.latch = s.latch ∧ t.rnd = s.rnd ∧ t.schedule = s.schedule ∧ t.freeCount = s.freeCount ∧ t.cfg = s.cfg

/-- R22: an instruction that writes VF as a flag leaves exactly 0 or 1 there, the flag written last or VF not its
destination (the order is decision D8). -/
def Obligations.FlagIsZeroOrOne : Prop :=
  ∀ (x y : RegIdx) (n : Fin 16) (i : Instr) (s t : State),
    (i = .addVxVy x y ∨ i = .subVxVy x y ∨ i = .shrVxVy x y ∨ i = .subnVxVy x y ∨ i = .shlVxVy x y
      ∨ i = .drw x y n) →
    exec i s = .next t →
    (i = .drw x y n ∨ s.cfg.vfWriteOrder = .flagLast ∨ x ≠ 15) → t.readV 15 = 0 ∨ t.readV 15 = 1

/-- R39, R38, R31: only Cxkk can tell the random byte, only Ex9E, ExA1 and Fx0A the latch, and no instruction ST: any
other instruction does the same under another value, with that value kept. -/
def Obligations.InputsReachOnlyTheirReaders : Prop :=
  ∀ (i : Instr) (s : State),
    (∀ r : Byte, (∀ x kk, i ≠ .rndVxKk x kk) →
      (∀ t, exec i s = .next t → exec i { s with rnd := r } = .next { t with rnd := r }) ∧
      (∀ e, exec i s = .fault e → exec i { s with rnd := r } = .fault e)) ∧
    (∀ l : Latch, (∀ x, i ≠ .skp x ∧ i ≠ .sknp x ∧ i ≠ .ldVxK x) →
      (∀ t, exec i s = .next t → exec i { s with latch := l } = .next { t with latch := l }) ∧
      (∀ e, exec i s = .fault e → exec i { s with latch := l } = .fault e)) ∧
    (∀ b : Byte, (∀ x, i ≠ .ldStVx x) →
      (∀ t, exec i s = .next t → exec i { s with st := b } = .next { t with st := b }) ∧
      (∀ e, exec i s = .fault e → exec i { s with st := b } = .fault e))

/-! ## Invariants of a run -/

/-- R29, R50 (the stack's depth is decision D3, log entry 8; the spec's limits are the model's reading, log entry 30;
the canonical form of memory is the model's, log entry 21): every step, of whatever action, keeps memory in its
canonical form inside the address space, the parameters inside the spec's limits, and the outstanding calls within the
usable depth. -/
def Obligations.StepKeepsTheInvariant : Prop := ∀ s t : State, Inv s → step s = .next t → Inv t

/-- R26 (the bounds rest on the sum of Bnnn not being reduced, decision D9, log entry 20, and on the entry of the stack,
decision D4, log entry 9): every step keeps PC at most 4350 and every return address at most 4096, so the reduction
modulo 65536 of R25 never takes effect. -/
def Obligations.StepKeepsProgramCounterBounded : Prop :=
  ∀ s t : State, PcBounded s → step s = .next t → PcBounded t

/-- R29: with the empty value 0 of decision D3, no step ever writes stack[0], and SP stays in 0 to 15. -/
def Obligations.StepLeavesStackEntryZeroAlone : Prop :=
  ∀ s t : State, Inv s → s.cfg.spReset = 0 → step s = .next t → t.stack[0] = s.stack[0] ∧ t.sp.toNat ≤ 15

/-- R41, R29, R26: the constructed machine meets both invariants. It rests on SP at the empty value and on the zeros of
the stack after construction, decision D2 (log entry 7, the spec's choice, unsafe), and on the canonical form and the
limits of the model (log entries 21 and 30). It says so of every configuration inside the spec's limits, and of the
reset state. -/
def Obligations.ConstructedMachineMeetsTheInvariants : Prop :=
  (∀ c : Config, c.wf = true → Inv (State.construct c) ∧ PcBounded (State.construct c)) ∧
  Inv State.reset ∧ PcBounded State.reset
end

