-- ==== Sys2Proof/Laws/Encoding.lean ====
section
/-! SUPPORT. The fields of an encoded word, format by format (30_encoding.md rules R81, R82), and the bytes of a word. -/

namespace Sys2Proof

/-- A field that lies in the low part of a concatenation. -/
theorem extract_append_low {m k : Nat} (a : BitVec m) (b : BitVec k) (start len : Nat) (h : start + len ≤ k) :
    (a ++ b).extractLsb' start len = b.extractLsb' start len := by
  apply BitVec.eq_of_getLsbD_eq
  intro i hi
  have : start + i < k := by omega
  simp [BitVec.getLsbD_append, hi, this]

/-- A field that lies in the high part of a concatenation. -/
theorem extract_append_high {m k : Nat} (a : BitVec m) (b : BitVec k) (start len : Nat) :
    (a ++ b).extractLsb' (k + start) len = a.extractLsb' start len := by
  apply BitVec.eq_of_getLsbD_eq
  intro i hi
  have h1 : ¬ k + start + i < k := by omega
  have h2 : k + start + i - k = start + i := by omega
  simp [BitVec.getLsbD_append, hi, h1, h2]

@[simp] theorem regOfBits_bitsOfReg (x : RegIdx) : regOfBits (bitsOfReg x) = x := by
  apply Fin.ext
  simp [regOfBits, bitsOfReg]

@[simp] theorem bitsOfReg_regOfBits (b : BitVec 4) : bitsOfReg (regOfBits b) = b := by
  simp [regOfBits, bitsOfReg]

/-! Format NNN. -/

@[simp] theorem opField_encodeNnn (op : BitVec 4) (nnn : Literal12) : opField (encodeNnn op nnn) = op :=
  (extract_append_high op nnn 0 4).trans BitVec.extractLsb'_eq_self

@[simp] theorem nnnField_encodeNnn (op : BitVec 4) (nnn : Literal12) : nnnField (encodeNnn op nnn) = nnn :=
  (extract_append_low op nnn 0 12 (by decide)).trans BitVec.extractLsb'_eq_self

/-! Formats XKK and XSS. -/

@[simp] theorem opField_encodeXkk (op : BitVec 4) (x : RegIdx) (kk : Byte) : opField (encodeXkk op x kk) = op :=
  (extract_append_high (op ++ bitsOfReg x) kk 4 4).trans
    ((extract_append_high op (bitsOfReg x) 0 4).trans BitVec.extractLsb'_eq_self)

@[simp] theorem xField_encodeXkk (op : BitVec 4) (x : RegIdx) (kk : Byte) : xField (encodeXkk op x kk) = x := by
  have h : (encodeXkk op x kk).extractLsb' 8 4 = bitsOfReg x :=
    (extract_append_high (op ++ bitsOfReg x) kk 0 4).trans
      ((extract_append_low op (bitsOfReg x) 0 4 (by decide)).trans BitVec.extractLsb'_eq_self)
  rw [xField, h, regOfBits_bitsOfReg]

@[simp] theorem kkField_encodeXkk (op : BitVec 4) (x : RegIdx) (kk : Byte) : kkField (encodeXkk op x kk) = kk :=
  (extract_append_low (op ++ bitsOfReg x) kk 0 8 (by decide)).trans BitVec.extractLsb'_eq_self

/-! Formats XYN and XYS. -/

@[simp] theorem opField_encodeXyn (op : BitVec 4) (x y : RegIdx) (n : BitVec 4) :
    opField (encodeXyn op x y n) = op :=
  (extract_append_high (op ++ bitsOfReg x) (bitsOfReg y ++ n) 4 4).trans
    ((extract_append_high op (bitsOfReg x) 0 4).trans BitVec.extractLsb'_eq_self)

@[simp] theorem xField_encodeXyn (op : BitVec 4) (x y : RegIdx) (n : BitVec 4) :
    xField (encodeXyn op x y n) = x := by
  have h : (encodeXyn op x y n).extractLsb' 8 4 = bitsOfReg x :=
    (extract_append_high (op ++ bitsOfReg x) (bitsOfReg y ++ n) 0 4).trans
      ((extract_append_low op (bitsOfReg x) 0 4 (by decide)).trans BitVec.extractLsb'_eq_self)
  rw [xField, h, regOfBits_bitsOfReg]

@[simp] theorem yField_encodeXyn (op : BitVec 4) (x y : RegIdx) (n : BitVec 4) :
    yField (encodeXyn op x y n) = y := by
  have h : (encodeXyn op x y n).extractLsb' 4 4 = bitsOfReg y :=
    (extract_append_low (op ++ bitsOfReg x) (bitsOfReg y ++ n) 4 4 (by decide)).trans
      ((extract_append_high (bitsOfReg y) n 0 4).trans BitVec.extractLsb'_eq_self)
  rw [yField, h, regOfBits_bitsOfReg]

@[simp] theorem nField_encodeXyn (op : BitVec 4) (x y : RegIdx) (n : BitVec 4) :
    nField (encodeXyn op x y n) = n :=
  (extract_append_low (op ++ bitsOfReg x) (bitsOfReg y ++ n) 0 4 (by decide)).trans
    ((extract_append_low (bitsOfReg y) n 0 4 (by decide)).trans BitVec.extractLsb'_eq_self)

/-! The bytes of a word (R53, R80). -/

/-- Two adjacent fields put together are the field that spans them. -/
theorem extract_append_extract {m : Nat} (w : BitVec m) (start low high : Nat) :
    w.extractLsb' (start + low) high ++ w.extractLsb' start low = w.extractLsb' start (high + low) := by
  apply BitVec.eq_of_getLsbD_eq
  intro i hi
  rw [BitVec.getLsbD_append]
  by_cases h : i < low
  · simp [h, show i < high + low by omega]
  · have h1 : i - low < high := by omega
    have h2 : start + low + (i - low) = start + i := by omega
    simp [h, hi, h1, h2]

/-- The bytes of a word, read back high byte first, are the word. -/
theorem wordOfBytes_bytesOfWord (w : Word) : wordOfBytes (w.extractLsb' 8 8) (w.extractLsb' 0 8) = w :=
  (extract_append_extract w 0 8 8).trans BitVec.extractLsb'_eq_self

/-- A word is its family and nnn; its family, x and kk; its family, x, y and n (R81). -/
theorem encodeNnn_fields (w : Word) : encodeNnn (opField w) (nnnField w) = w :=
  (extract_append_extract w 0 12 4).trans BitVec.extractLsb'_eq_self

theorem encodeXkk_fields (w : Word) : encodeXkk (opField w) (xField w) (kkField w) = w := by
  rw [encodeXkk, xField, bitsOfReg_regOfBits]
  exact (congrArg (· ++ kkField w) (extract_append_extract w 8 4 4)).trans (wordOfBytes_bytesOfWord w)

theorem encodeXyn_fields (w : Word) : encodeXyn (opField w) (xField w) (yField w) (nField w) = w := by
  rw [encodeXyn, xField, yField, bitsOfReg_regOfBits, bitsOfReg_regOfBits]
  have hh : opField w ++ w.extractLsb' 8 4 = w.extractLsb' 8 8 := extract_append_extract w 8 4 4
  have hl : w.extractLsb' 4 4 ++ nField w = w.extractLsb' 0 8 := extract_append_extract w 0 4 4
  rw [hh, hl]
  exact wordOfBytes_bytesOfWord w

/-! Masks (R84): a mask of whole nibbles keeps the nibbles it covers. -/

theorem append_and_append {m k : Nat} (a a' : BitVec m) (b b' : BitVec k) :
    (a ++ b) &&& (a' ++ b') = (a &&& a') ++ (b &&& b') := by
  apply BitVec.eq_of_getLsbD_eq
  intro i _
  by_cases h : i < k <;> simp [BitVec.getLsbD_append, h]

theorem encodeNnn_mask (op : BitVec 4) (nnn : Literal12) : encodeNnn op nnn &&& 0xF000 = op ++ 0x000#12 := by
  refine (append_and_append op 0xF#4 nnn 0x000#12).trans ?_
  rw [BitVec.and_zero, show (0xF#4) = BitVec.allOnes 4 from rfl, BitVec.and_allOnes]

theorem encodeXkk_mask_op (op : BitVec 4) (x : RegIdx) (kk : Byte) :
    encodeXkk op x kk &&& 0xF000 = (op ++ 0x0#4) ++ 0x00#8 := by
  refine (append_and_append (op ++ bitsOfReg x) (0xF#4 ++ 0x0#4) kk 0x00#8).trans ?_
  rw [append_and_append, BitVec.and_zero, BitVec.and_zero, show (0xF#4) = BitVec.allOnes 4 from rfl, BitVec.and_allOnes]

theorem encodeXkk_mask_kk (op : BitVec 4) (x : RegIdx) (kk : Byte) :
    encodeXkk op x kk &&& 0xF0FF = (op ++ 0x0#4) ++ kk := by
  refine (append_and_append (op ++ bitsOfReg x) (0xF#4 ++ 0x0#4) kk 0xFF#8).trans ?_
  rw [append_and_append, BitVec.and_zero, show (0xF#4) = BitVec.allOnes 4 from rfl, BitVec.and_allOnes,
    show (0xFF#8) = BitVec.allOnes 8 from rfl, BitVec.and_allOnes]

theorem encodeXyn_mask_op (op : BitVec 4) (x y : RegIdx) (n : BitVec 4) :
    encodeXyn op x y n &&& 0xF000 = (op ++ 0x0#4) ++ 0x00#8 := by
  refine (append_and_append (op ++ bitsOfReg x) (0xF#4 ++ 0x0#4) (bitsOfReg y ++ n) 0x00#8).trans ?_
  rw [append_and_append, BitVec.and_zero, BitVec.and_zero, show (0xF#4) = BitVec.allOnes 4 from rfl, BitVec.and_allOnes]

theorem encodeXyn_mask_n (op : BitVec 4) (x y : RegIdx) (n : BitVec 4) :
    encodeXyn op x y n &&& 0xF00F = (op ++ 0x0#4) ++ (0x0#4 ++ n) := by
  refine (append_and_append (op ++ bitsOfReg x) (0xF#4 ++ 0x0#4) (bitsOfReg y ++ n) (0x0#4 ++ 0xF#4)).trans ?_
  rw [append_and_append, append_and_append, BitVec.and_zero, BitVec.and_zero,
    show (0xF#4) = BitVec.allOnes 4 from rfl, BitVec.and_allOnes, BitVec.and_allOnes]

end Sys2Proof
end

