-- ==== Sys2Proof/Laws/State.lean ====
section
/-! SUPPORT. Every field of every named update of State, true by definition, so that no proof unfolds a record update;
then the same for the updates that choose between two (skipIf, writeResultAndFlag, setBytes) and the reads of
registers. -/

namespace Sys2Proof.Machine

variable (s : State)

@[simp] theorem State.writeV_v (x : RegIdx) (b : Byte) : (s.writeV x b).v = s.v.set x b := rfl
@[simp] theorem State.writeV_i (x : RegIdx) (b : Byte) : (s.writeV x b).i = s.i := rfl
@[simp] theorem State.writeV_pc (x : RegIdx) (b : Byte) : (s.writeV x b).pc = s.pc := rfl
@[simp] theorem State.writeV_sp (x : RegIdx) (b : Byte) : (s.writeV x b).sp = s.sp := rfl
@[simp] theorem State.writeV_stack (x : RegIdx) (b : Byte) : (s.writeV x b).stack = s.stack := rfl
@[simp] theorem State.writeV_dt (x : RegIdx) (b : Byte) : (s.writeV x b).dt = s.dt := rfl
@[simp] theorem State.writeV_st (x : RegIdx) (b : Byte) : (s.writeV x b).st = s.st := rfl
@[simp] theorem State.writeV_mem (x : RegIdx) (b : Byte) : (s.writeV x b).mem = s.mem := rfl
@[simp] theorem State.writeV_fb (x : RegIdx) (b : Byte) : (s.writeV x b).fb = s.fb := rfl
@[simp] theorem State.writeV_latch (x : RegIdx) (b : Byte) : (s.writeV x b).latch = s.latch := rfl
@[simp] theorem State.writeV_rnd (x : RegIdx) (b : Byte) : (s.writeV x b).rnd = s.rnd := rfl
@[simp] theorem State.writeV_report (x : RegIdx) (b : Byte) : (s.writeV x b).report = s.report := rfl
@[simp] theorem State.writeV_schedule (x : RegIdx) (b : Byte) : (s.writeV x b).schedule = s.schedule := rfl
@[simp] theorem State.writeV_freeCount (x : RegIdx) (b : Byte) : (s.writeV x b).freeCount = s.freeCount := rfl
@[simp] theorem State.writeV_cfg (x : RegIdx) (b : Byte) : (s.writeV x b).cfg = s.cfg := rfl

@[simp] theorem State.writeRegs_i (bs : List Byte) : (s.writeRegs bs).i = s.i := rfl
@[simp] theorem State.writeRegs_pc (bs : List Byte) : (s.writeRegs bs).pc = s.pc := rfl
@[simp] theorem State.writeRegs_sp (bs : List Byte) : (s.writeRegs bs).sp = s.sp := rfl
@[simp] theorem State.writeRegs_stack (bs : List Byte) : (s.writeRegs bs).stack = s.stack := rfl
@[simp] theorem State.writeRegs_dt (bs : List Byte) : (s.writeRegs bs).dt = s.dt := rfl
@[simp] theorem State.writeRegs_st (bs : List Byte) : (s.writeRegs bs).st = s.st := rfl
@[simp] theorem State.writeRegs_mem (bs : List Byte) : (s.writeRegs bs).mem = s.mem := rfl
@[simp] theorem State.writeRegs_fb (bs : List Byte) : (s.writeRegs bs).fb = s.fb := rfl
@[simp] theorem State.writeRegs_latch (bs : List Byte) : (s.writeRegs bs).latch = s.latch := rfl
@[simp] theorem State.writeRegs_rnd (bs : List Byte) : (s.writeRegs bs).rnd = s.rnd := rfl
@[simp] theorem State.writeRegs_report (bs : List Byte) : (s.writeRegs bs).report = s.report := rfl
@[simp] theorem State.writeRegs_schedule (bs : List Byte) : (s.writeRegs bs).schedule = s.schedule := rfl
@[simp] theorem State.writeRegs_freeCount (bs : List Byte) : (s.writeRegs bs).freeCount = s.freeCount := rfl
@[simp] theorem State.writeRegs_cfg (bs : List Byte) : (s.writeRegs bs).cfg = s.cfg := rfl

@[simp] theorem State.setI_v (a : Word) : (s.setI a).v = s.v := rfl
@[simp] theorem State.setI_i (a : Word) : (s.setI a).i = a := rfl
@[simp] theorem State.setI_pc (a : Word) : (s.setI a).pc = s.pc := rfl
@[simp] theorem State.setI_sp (a : Word) : (s.setI a).sp = s.sp := rfl
@[simp] theorem State.setI_stack (a : Word) : (s.setI a).stack = s.stack := rfl
@[simp] theorem State.setI_dt (a : Word) : (s.setI a).dt = s.dt := rfl
@[simp] theorem State.setI_st (a : Word) : (s.setI a).st = s.st := rfl
@[simp] theorem State.setI_mem (a : Word) : (s.setI a).mem = s.mem := rfl
@[simp] theorem State.setI_fb (a : Word) : (s.setI a).fb = s.fb := rfl
@[simp] theorem State.setI_latch (a : Word) : (s.setI a).latch = s.latch := rfl
@[simp] theorem State.setI_rnd (a : Word) : (s.setI a).rnd = s.rnd := rfl
@[simp] theorem State.setI_report (a : Word) : (s.setI a).report = s.report := rfl
@[simp] theorem State.setI_schedule (a : Word) : (s.setI a).schedule = s.schedule := rfl
@[simp] theorem State.setI_freeCount (a : Word) : (s.setI a).freeCount = s.freeCount := rfl
@[simp] theorem State.setI_cfg (a : Word) : (s.setI a).cfg = s.cfg := rfl

@[simp] theorem State.setDt_v (b : Byte) : (s.setDt b).v = s.v := rfl
@[simp] theorem State.setDt_i (b : Byte) : (s.setDt b).i = s.i := rfl
@[simp] theorem State.setDt_pc (b : Byte) : (s.setDt b).pc = s.pc := rfl
@[simp] theorem State.setDt_sp (b : Byte) : (s.setDt b).sp = s.sp := rfl
@[simp] theorem State.setDt_stack (b : Byte) : (s.setDt b).stack = s.stack := rfl
@[simp] theorem State.setDt_dt (b : Byte) : (s.setDt b).dt = b := rfl
@[simp] theorem State.setDt_st (b : Byte) : (s.setDt b).st = s.st := rfl
@[simp] theorem State.setDt_mem (b : Byte) : (s.setDt b).mem = s.mem := rfl
@[simp] theorem State.setDt_fb (b : Byte) : (s.setDt b).fb = s.fb := rfl
@[simp] theorem State.setDt_latch (b : Byte) : (s.setDt b).latch = s.latch := rfl
@[simp] theorem State.setDt_rnd (b : Byte) : (s.setDt b).rnd = s.rnd := rfl
@[simp] theorem State.setDt_report (b : Byte) : (s.setDt b).report = s.report := rfl
@[simp] theorem State.setDt_schedule (b : Byte) : (s.setDt b).schedule = s.schedule := rfl
@[simp] theorem State.setDt_freeCount (b : Byte) : (s.setDt b).freeCount = s.freeCount := rfl
@[simp] theorem State.setDt_cfg (b : Byte) : (s.setDt b).cfg = s.cfg := rfl

@[simp] theorem State.setSt_v (b : Byte) : (s.setSt b).v = s.v := rfl
@[simp] theorem State.setSt_i (b : Byte) : (s.setSt b).i = s.i := rfl
@[simp] theorem State.setSt_pc (b : Byte) : (s.setSt b).pc = s.pc := rfl
@[simp] theorem State.setSt_sp (b : Byte) : (s.setSt b).sp = s.sp := rfl
@[simp] theorem State.setSt_stack (b : Byte) : (s.setSt b).stack = s.stack := rfl
@[simp] theorem State.setSt_dt (b : Byte) : (s.setSt b).dt = s.dt := rfl
@[simp] theorem State.setSt_st (b : Byte) : (s.setSt b).st = b := rfl
@[simp] theorem State.setSt_mem (b : Byte) : (s.setSt b).mem = s.mem := rfl
@[simp] theorem State.setSt_fb (b : Byte) : (s.setSt b).fb = s.fb := rfl
@[simp] theorem State.setSt_latch (b : Byte) : (s.setSt b).latch = s.latch := rfl
@[simp] theorem State.setSt_rnd (b : Byte) : (s.setSt b).rnd = s.rnd := rfl
@[simp] theorem State.setSt_report (b : Byte) : (s.setSt b).report = s.report := rfl
@[simp] theorem State.setSt_schedule (b : Byte) : (s.setSt b).schedule = s.schedule := rfl
@[simp] theorem State.setSt_freeCount (b : Byte) : (s.setSt b).freeCount = s.freeCount := rfl
@[simp] theorem State.setSt_cfg (b : Byte) : (s.setSt b).cfg = s.cfg := rfl

@[simp] theorem State.setFb_v (fb : Framebuffer) : (s.setFb fb).v = s.v := rfl
@[simp] theorem State.setFb_i (fb : Framebuffer) : (s.setFb fb).i = s.i := rfl
@[simp] theorem State.setFb_pc (fb : Framebuffer) : (s.setFb fb).pc = s.pc := rfl
@[simp] theorem State.setFb_sp (fb : Framebuffer) : (s.setFb fb).sp = s.sp := rfl
@[simp] theorem State.setFb_stack (fb : Framebuffer) : (s.setFb fb).stack = s.stack := rfl
@[simp] theorem State.setFb_dt (fb : Framebuffer) : (s.setFb fb).dt = s.dt := rfl
@[simp] theorem State.setFb_st (fb : Framebuffer) : (s.setFb fb).st = s.st := rfl
@[simp] theorem State.setFb_mem (fb : Framebuffer) : (s.setFb fb).mem = s.mem := rfl
@[simp] theorem State.setFb_fb (fb : Framebuffer) : (s.setFb fb).fb = fb := rfl
@[simp] theorem State.setFb_latch (fb : Framebuffer) : (s.setFb fb).latch = s.latch := rfl
@[simp] theorem State.setFb_rnd (fb : Framebuffer) : (s.setFb fb).rnd = s.rnd := rfl
@[simp] theorem State.setFb_report (fb : Framebuffer) : (s.setFb fb).report = s.report := rfl
@[simp] theorem State.setFb_schedule (fb : Framebuffer) : (s.setFb fb).schedule = s.schedule := rfl
@[simp] theorem State.setFb_freeCount (fb : Framebuffer) : (s.setFb fb).freeCount = s.freeCount := rfl
@[simp] theorem State.setFb_cfg (fb : Framebuffer) : (s.setFb fb).cfg = s.cfg := rfl

@[simp] theorem State.finish_v (a : Word) : (s.finish a).v = s.v := rfl
@[simp] theorem State.finish_i (a : Word) : (s.finish a).i = s.i := rfl
@[simp] theorem State.finish_pc (a : Word) : (s.finish a).pc = a := rfl
@[simp] theorem State.finish_sp (a : Word) : (s.finish a).sp = s.sp := rfl
@[simp] theorem State.finish_stack (a : Word) : (s.finish a).stack = s.stack := rfl
@[simp] theorem State.finish_dt (a : Word) : (s.finish a).dt = s.dt := rfl
@[simp] theorem State.finish_st (a : Word) : (s.finish a).st = s.st := rfl
@[simp] theorem State.finish_mem (a : Word) : (s.finish a).mem = s.mem := rfl
@[simp] theorem State.finish_fb (a : Word) : (s.finish a).fb = s.fb := rfl
@[simp] theorem State.finish_latch (a : Word) : (s.finish a).latch = s.latch := rfl
@[simp] theorem State.finish_rnd (a : Word) : (s.finish a).rnd = s.rnd := rfl
@[simp] theorem State.finish_report (a : Word) : (s.finish a).report = .done := rfl
@[simp] theorem State.finish_schedule (a : Word) : (s.finish a).schedule = s.schedule := rfl
@[simp] theorem State.finish_freeCount (a : Word) : (s.finish a).freeCount = s.freeCount := rfl
@[simp] theorem State.finish_cfg (a : Word) : (s.finish a).cfg = s.cfg := rfl

@[simp] theorem State.next_v : s.next.v = s.v := rfl
@[simp] theorem State.next_i : s.next.i = s.i := rfl
@[simp] theorem State.next_pc : s.next.pc = s.pc + 2 := rfl
@[simp] theorem State.next_sp : s.next.sp = s.sp := rfl
@[simp] theorem State.next_stack : s.next.stack = s.stack := rfl
@[simp] theorem State.next_dt : s.next.dt = s.dt := rfl
@[simp] theorem State.next_st : s.next.st = s.st := rfl
@[simp] theorem State.next_mem : s.next.mem = s.mem := rfl
@[simp] theorem State.next_fb : s.next.fb = s.fb := rfl
@[simp] theorem State.next_latch : s.next.latch = s.latch := rfl
@[simp] theorem State.next_rnd : s.next.rnd = s.rnd := rfl
@[simp] theorem State.next_report : s.next.report = .done := rfl
@[simp] theorem State.next_schedule : s.next.schedule = s.schedule := rfl
@[simp] theorem State.next_freeCount : s.next.freeCount = s.freeCount := rfl
@[simp] theorem State.next_cfg : s.next.cfg = s.cfg := rfl

@[simp] theorem State.skip_v : s.skip.v = s.v := rfl
@[simp] theorem State.skip_i : s.skip.i = s.i := rfl
@[simp] theorem State.skip_pc : s.skip.pc = s.pc + 4 := rfl
@[simp] theorem State.skip_sp : s.skip.sp = s.sp := rfl
@[simp] theorem State.skip_stack : s.skip.stack = s.stack := rfl
@[simp] theorem State.skip_dt : s.skip.dt = s.dt := rfl
@[simp] theorem State.skip_st : s.skip.st = s.st := rfl
@[simp] theorem State.skip_mem : s.skip.mem = s.mem := rfl
@[simp] theorem State.skip_fb : s.skip.fb = s.fb := rfl
@[simp] theorem State.skip_latch : s.skip.latch = s.latch := rfl
@[simp] theorem State.skip_rnd : s.skip.rnd = s.rnd := rfl
@[simp] theorem State.skip_report : s.skip.report = .done := rfl
@[simp] theorem State.skip_schedule : s.skip.schedule = s.schedule := rfl
@[simp] theorem State.skip_freeCount : s.skip.freeCount = s.freeCount := rfl
@[simp] theorem State.skip_cfg : s.skip.cfg = s.cfg := rfl

@[simp] theorem State.wait_v : s.wait.v = s.v := rfl
@[simp] theorem State.wait_i : s.wait.i = s.i := rfl
@[simp] theorem State.wait_pc : s.wait.pc = s.pc := rfl
@[simp] theorem State.wait_sp : s.wait.sp = s.sp := rfl
@[simp] theorem State.wait_stack : s.wait.stack = s.stack := rfl
@[simp] theorem State.wait_dt : s.wait.dt = s.dt := rfl
@[simp] theorem State.wait_st : s.wait.st = s.st := rfl
@[simp] theorem State.wait_mem : s.wait.mem = s.mem := rfl
@[simp] theorem State.wait_fb : s.wait.fb = s.fb := rfl
@[simp] theorem State.wait_latch : s.wait.latch = s.latch := rfl
@[simp] theorem State.wait_rnd : s.wait.rnd = s.rnd := rfl
@[simp] theorem State.wait_report : s.wait.report = .waiting := rfl
@[simp] theorem State.wait_schedule : s.wait.schedule = s.schedule := rfl
@[simp] theorem State.wait_freeCount : s.wait.freeCount = s.freeCount := rfl
@[simp] theorem State.wait_cfg : s.wait.cfg = s.cfg := rfl

@[simp] theorem State.push_v (a : Word) : (s.push a).v = s.v := rfl
@[simp] theorem State.push_i (a : Word) : (s.push a).i = s.i := rfl
@[simp] theorem State.push_pc (a : Word) : (s.push a).pc = s.pc := rfl
@[simp] theorem State.push_sp (a : Word) : (s.push a).sp = s.sp + 1 := rfl
@[simp] theorem State.push_stack (a : Word) : (s.push a).stack = s.stack.setIfInBounds (s.sp + 1).toNat a := rfl
@[simp] theorem State.push_dt (a : Word) : (s.push a).dt = s.dt := rfl
@[simp] theorem State.push_st (a : Word) : (s.push a).st = s.st := rfl
@[simp] theorem State.push_mem (a : Word) : (s.push a).mem = s.mem := rfl
@[simp] theorem State.push_fb (a : Word) : (s.push a).fb = s.fb := rfl
@[simp] theorem State.push_latch (a : Word) : (s.push a).latch = s.latch := rfl
@[simp] theorem State.push_rnd (a : Word) : (s.push a).rnd = s.rnd := rfl
@[simp] theorem State.push_report (a : Word) : (s.push a).report = s.report := rfl
@[simp] theorem State.push_schedule (a : Word) : (s.push a).schedule = s.schedule := rfl
@[simp] theorem State.push_freeCount (a : Word) : (s.push a).freeCount = s.freeCount := rfl
@[simp] theorem State.push_cfg (a : Word) : (s.push a).cfg = s.cfg := rfl

@[simp] theorem State.pop_v : s.pop.v = s.v := rfl
@[simp] theorem State.pop_i : s.pop.i = s.i := rfl
@[simp] theorem State.pop_pc : s.pop.pc = s.pc := rfl
@[simp] theorem State.pop_sp : s.pop.sp = s.sp - 1 := rfl
@[simp] theorem State.pop_stack : s.pop.stack = s.stack := rfl
@[simp] theorem State.pop_dt : s.pop.dt = s.dt := rfl
@[simp] theorem State.pop_st : s.pop.st = s.st := rfl
@[simp] theorem State.pop_mem : s.pop.mem = s.mem := rfl
@[simp] theorem State.pop_fb : s.pop.fb = s.fb := rfl
@[simp] theorem State.pop_latch : s.pop.latch = s.latch := rfl
@[simp] theorem State.pop_rnd : s.pop.rnd = s.rnd := rfl
@[simp] theorem State.pop_report : s.pop.report = s.report := rfl
@[simp] theorem State.pop_schedule : s.pop.schedule = s.schedule := rfl
@[simp] theorem State.pop_freeCount : s.pop.freeCount = s.freeCount := rfl
@[simp] theorem State.pop_cfg : s.pop.cfg = s.cfg := rfl

@[simp] theorem State.setByte_v (a : Nat) (b : Byte) : (s.setByte a b).v = s.v := rfl
@[simp] theorem State.setByte_i (a : Nat) (b : Byte) : (s.setByte a b).i = s.i := rfl
@[simp] theorem State.setByte_pc (a : Nat) (b : Byte) : (s.setByte a b).pc = s.pc := rfl
@[simp] theorem State.setByte_sp (a : Nat) (b : Byte) : (s.setByte a b).sp = s.sp := rfl
@[simp] theorem State.setByte_stack (a : Nat) (b : Byte) : (s.setByte a b).stack = s.stack := rfl
@[simp] theorem State.setByte_dt (a : Nat) (b : Byte) : (s.setByte a b).dt = s.dt := rfl
@[simp] theorem State.setByte_st (a : Nat) (b : Byte) : (s.setByte a b).st = s.st := rfl
@[simp] theorem State.setByte_mem (a : Nat) (b : Byte) : (s.setByte a b).mem = Memory.write s.cfg s.mem a b := rfl
@[simp] theorem State.setByte_fb (a : Nat) (b : Byte) : (s.setByte a b).fb = s.fb := rfl
@[simp] theorem State.setByte_latch (a : Nat) (b : Byte) : (s.setByte a b).latch = s.latch := rfl
@[simp] theorem State.setByte_rnd (a : Nat) (b : Byte) : (s.setByte a b).rnd = s.rnd := rfl
@[simp] theorem State.setByte_report (a : Nat) (b : Byte) : (s.setByte a b).report = s.report := rfl
@[simp] theorem State.setByte_schedule (a : Nat) (b : Byte) : (s.setByte a b).schedule = s.schedule := rfl
@[simp] theorem State.setByte_freeCount (a : Nat) (b : Byte) : (s.setByte a b).freeCount = s.freeCount := rfl
@[simp] theorem State.setByte_cfg (a : Nat) (b : Byte) : (s.setByte a b).cfg = s.cfg := rfl

@[simp] theorem State.takeAction_v (rest : List HostAction) : (s.takeAction rest).v = s.v := rfl
@[simp] theorem State.takeAction_i (rest : List HostAction) : (s.takeAction rest).i = s.i := rfl
@[simp] theorem State.takeAction_pc (rest : List HostAction) : (s.takeAction rest).pc = s.pc := rfl
@[simp] theorem State.takeAction_sp (rest : List HostAction) : (s.takeAction rest).sp = s.sp := rfl
@[simp] theorem State.takeAction_stack (rest : List HostAction) : (s.takeAction rest).stack = s.stack := rfl
@[simp] theorem State.takeAction_dt (rest : List HostAction) : (s.takeAction rest).dt = s.dt := rfl
@[simp] theorem State.takeAction_st (rest : List HostAction) : (s.takeAction rest).st = s.st := rfl
@[simp] theorem State.takeAction_mem (rest : List HostAction) : (s.takeAction rest).mem = s.mem := rfl
@[simp] theorem State.takeAction_fb (rest : List HostAction) : (s.takeAction rest).fb = s.fb := rfl
@[simp] theorem State.takeAction_latch (rest : List HostAction) : (s.takeAction rest).latch = s.latch := rfl
@[simp] theorem State.takeAction_rnd (rest : List HostAction) : (s.takeAction rest).rnd = s.rnd := rfl
@[simp] theorem State.takeAction_report (rest : List HostAction) : (s.takeAction rest).report = s.report := rfl
@[simp] theorem State.takeAction_schedule (rest : List HostAction) : (s.takeAction rest).schedule = rest := rfl
@[simp] theorem State.takeAction_freeCount (rest : List HostAction) : (s.takeAction rest).freeCount = s.freeCount := rfl
@[simp] theorem State.takeAction_cfg (rest : List HostAction) : (s.takeAction rest).cfg = s.cfg := rfl

@[simp] theorem State.present_v (l : Latch) (r : Byte) : (s.present l r).v = s.v := rfl
@[simp] theorem State.present_i (l : Latch) (r : Byte) : (s.present l r).i = s.i := rfl
@[simp] theorem State.present_pc (l : Latch) (r : Byte) : (s.present l r).pc = s.pc := rfl
@[simp] theorem State.present_sp (l : Latch) (r : Byte) : (s.present l r).sp = s.sp := rfl
@[simp] theorem State.present_stack (l : Latch) (r : Byte) : (s.present l r).stack = s.stack := rfl
@[simp] theorem State.present_dt (l : Latch) (r : Byte) : (s.present l r).dt = s.dt := rfl
@[simp] theorem State.present_st (l : Latch) (r : Byte) : (s.present l r).st = s.st := rfl
@[simp] theorem State.present_mem (l : Latch) (r : Byte) : (s.present l r).mem = s.mem := rfl
@[simp] theorem State.present_fb (l : Latch) (r : Byte) : (s.present l r).fb = s.fb := rfl
@[simp] theorem State.present_latch (l : Latch) (r : Byte) : (s.present l r).latch = l := rfl
@[simp] theorem State.present_rnd (l : Latch) (r : Byte) : (s.present l r).rnd = r := rfl
@[simp] theorem State.present_report (l : Latch) (r : Byte) : (s.present l r).report = s.report := rfl
@[simp] theorem State.present_schedule (l : Latch) (r : Byte) : (s.present l r).schedule = s.schedule := rfl
@[simp] theorem State.present_freeCount (l : Latch) (r : Byte) : (s.present l r).freeCount = s.freeCount := rfl
@[simp] theorem State.present_cfg (l : Latch) (r : Byte) : (s.present l r).cfg = s.cfg := rfl

@[simp] theorem State.presentFree_v : s.presentFree.v = s.v := rfl
@[simp] theorem State.presentFree_i : s.presentFree.i = s.i := rfl
@[simp] theorem State.presentFree_pc : s.presentFree.pc = s.pc := rfl
@[simp] theorem State.presentFree_sp : s.presentFree.sp = s.sp := rfl
@[simp] theorem State.presentFree_stack : s.presentFree.stack = s.stack := rfl
@[simp] theorem State.presentFree_dt : s.presentFree.dt = s.dt := rfl
@[simp] theorem State.presentFree_st : s.presentFree.st = s.st := rfl
@[simp] theorem State.presentFree_mem : s.presentFree.mem = s.mem := rfl
@[simp] theorem State.presentFree_fb : s.presentFree.fb = s.fb := rfl
@[simp] theorem State.presentFree_latch : s.presentFree.latch = Config.freeLatch s.freeCount := rfl
@[simp] theorem State.presentFree_rnd : s.presentFree.rnd = Config.freeRandom s.freeCount := rfl
@[simp] theorem State.presentFree_report : s.presentFree.report = s.report := rfl
@[simp] theorem State.presentFree_schedule : s.presentFree.schedule = s.schedule := rfl
@[simp] theorem State.presentFree_freeCount : s.presentFree.freeCount = s.freeCount + 1 := rfl
@[simp] theorem State.presentFree_cfg : s.presentFree.cfg = s.cfg := rfl

@[simp] theorem State.skipIf_v (c : Bool) : (s.skipIf c).v = s.v := by cases c <;> rfl
@[simp] theorem State.skipIf_i (c : Bool) : (s.skipIf c).i = s.i := by cases c <;> rfl
@[simp] theorem State.skipIf_sp (c : Bool) : (s.skipIf c).sp = s.sp := by cases c <;> rfl
@[simp] theorem State.skipIf_stack (c : Bool) : (s.skipIf c).stack = s.stack := by cases c <;> rfl
@[simp] theorem State.skipIf_dt (c : Bool) : (s.skipIf c).dt = s.dt := by cases c <;> rfl
@[simp] theorem State.skipIf_st (c : Bool) : (s.skipIf c).st = s.st := by cases c <;> rfl
@[simp] theorem State.skipIf_mem (c : Bool) : (s.skipIf c).mem = s.mem := by cases c <;> rfl
@[simp] theorem State.skipIf_fb (c : Bool) : (s.skipIf c).fb = s.fb := by cases c <;> rfl
@[simp] theorem State.skipIf_latch (c : Bool) : (s.skipIf c).latch = s.latch := by cases c <;> rfl
@[simp] theorem State.skipIf_rnd (c : Bool) : (s.skipIf c).rnd = s.rnd := by cases c <;> rfl
@[simp] theorem State.skipIf_schedule (c : Bool) : (s.skipIf c).schedule = s.schedule := by cases c <;> rfl
@[simp] theorem State.skipIf_freeCount (c : Bool) : (s.skipIf c).freeCount = s.freeCount := by cases c <;> rfl
@[simp] theorem State.skipIf_cfg (c : Bool) : (s.skipIf c).cfg = s.cfg := by cases c <;> rfl
@[simp] theorem State.skipIf_report (c : Bool) : (s.skipIf c).report = .done := by cases c <;> rfl
@[simp] theorem State.skipIf_pc (c : Bool) : (s.skipIf c).pc = if c then s.pc + 4 else s.pc + 2 := by cases c <;> rfl

@[simp] theorem State.writeResultAndFlag_i (x : RegIdx) (r : Byte) (b : Bool) :
    (s.writeResultAndFlag x r b).i = s.i := by unfold State.writeResultAndFlag; cases s.cfg.vfWriteOrder <;> rfl
@[simp] theorem State.writeResultAndFlag_pc (x : RegIdx) (r : Byte) (b : Bool) :
    (s.writeResultAndFlag x r b).pc = s.pc := by unfold State.writeResultAndFlag; cases s.cfg.vfWriteOrder <;> rfl
@[simp] theorem State.writeResultAndFlag_sp (x : RegIdx) (r : Byte) (b : Bool) :
    (s.writeResultAndFlag x r b).sp = s.sp := by unfold State.writeResultAndFlag; cases s.cfg.vfWriteOrder <;> rfl
@[simp] theorem State.writeResultAndFlag_stack (x : RegIdx) (r : Byte) (b : Bool) :
    (s.writeResultAndFlag x r b).stack = s.stack := by unfold State.writeResultAndFlag; cases s.cfg.vfWriteOrder <;> rfl
@[simp] theorem State.writeResultAndFlag_dt (x : RegIdx) (r : Byte) (b : Bool) :
    (s.writeResultAndFlag x r b).dt = s.dt := by unfold State.writeResultAndFlag; cases s.cfg.vfWriteOrder <;> rfl
@[simp] theorem State.writeResultAndFlag_st (x : RegIdx) (r : Byte) (b : Bool) :
    (s.writeResultAndFlag x r b).st = s.st := by unfold State.writeResultAndFlag; cases s.cfg.vfWriteOrder <;> rfl
@[simp] theorem State.writeResultAndFlag_mem (x : RegIdx) (r : Byte) (b : Bool) :
    (s.writeResultAndFlag x r b).mem = s.mem := by unfold State.writeResultAndFlag; cases s.cfg.vfWriteOrder <;> rfl
@[simp] theorem State.writeResultAndFlag_fb (x : RegIdx) (r : Byte) (b : Bool) :
    (s.writeResultAndFlag x r b).fb = s.fb := by unfold State.writeResultAndFlag; cases s.cfg.vfWriteOrder <;> rfl
@[simp] theorem State.writeResultAndFlag_latch (x : RegIdx) (r : Byte) (b : Bool) :
    (s.writeResultAndFlag x r b).latch = s.latch := by unfold State.writeResultAndFlag; cases s.cfg.vfWriteOrder <;> rfl
@[simp] theorem State.writeResultAndFlag_rnd (x : RegIdx) (r : Byte) (b : Bool) :
    (s.writeResultAndFlag x r b).rnd = s.rnd := by unfold State.writeResultAndFlag; cases s.cfg.vfWriteOrder <;> rfl
@[simp] theorem State.writeResultAndFlag_report (x : RegIdx) (r : Byte) (b : Bool) :
    (s.writeResultAndFlag x r b).report = s.report := by unfold State.writeResultAndFlag; cases s.cfg.vfWriteOrder <;> rfl
@[simp] theorem State.writeResultAndFlag_schedule (x : RegIdx) (r : Byte) (b : Bool) :
    (s.writeResultAndFlag x r b).schedule = s.schedule := by unfold State.writeResultAndFlag; cases s.cfg.vfWriteOrder <;> rfl
@[simp] theorem State.writeResultAndFlag_freeCount (x : RegIdx) (r : Byte) (b : Bool) :
    (s.writeResultAndFlag x r b).freeCount = s.freeCount := by unfold State.writeResultAndFlag; cases s.cfg.vfWriteOrder <;> rfl
@[simp] theorem State.writeResultAndFlag_cfg (x : RegIdx) (r : Byte) (b : Bool) :
    (s.writeResultAndFlag x r b).cfg = s.cfg := by unfold State.writeResultAndFlag; cases s.cfg.vfWriteOrder <;> rfl

@[simp] theorem State.setBytes_v (bs : List Byte) : ∀ (s : State) (a : Nat), (s.setBytes a bs).v = s.v := by
  induction bs with
  | nil => intros; rfl
  | cons b bs ih => intro s a; simp [State.setBytes, ih]
@[simp] theorem State.setBytes_i (bs : List Byte) : ∀ (s : State) (a : Nat), (s.setBytes a bs).i = s.i := by
  induction bs with
  | nil => intros; rfl
  | cons b bs ih => intro s a; simp [State.setBytes, ih]
@[simp] theorem State.setBytes_pc (bs : List Byte) : ∀ (s : State) (a : Nat), (s.setBytes a bs).pc = s.pc := by
  induction bs with
  | nil => intros; rfl
  | cons b bs ih => intro s a; simp [State.setBytes, ih]
@[simp] theorem State.setBytes_sp (bs : List Byte) : ∀ (s : State) (a : Nat), (s.setBytes a bs).sp = s.sp := by
  induction bs with
  | nil => intros; rfl
  | cons b bs ih => intro s a; simp [State.setBytes, ih]
@[simp] theorem State.setBytes_stack (bs : List Byte) : ∀ (s : State) (a : Nat), (s.setBytes a bs).stack = s.stack := by
  induction bs with
  | nil => intros; rfl
  | cons b bs ih => intro s a; simp [State.setBytes, ih]
@[simp] theorem State.setBytes_dt (bs : List Byte) : ∀ (s : State) (a : Nat), (s.setBytes a bs).dt = s.dt := by
  induction bs with
  | nil => intros; rfl
  | cons b bs ih => intro s a; simp [State.setBytes, ih]
@[simp] theorem State.setBytes_st (bs : List Byte) : ∀ (s : State) (a : Nat), (s.setBytes a bs).st = s.st := by
  induction bs with
  | nil => intros; rfl
  | cons b bs ih => intro s a; simp [State.setBytes, ih]
@[simp] theorem State.setBytes_fb (bs : List Byte) : ∀ (s : State) (a : Nat), (s.setBytes a bs).fb = s.fb := by
  induction bs with
  | nil => intros; rfl
  | cons b bs ih => intro s a; simp [State.setBytes, ih]
@[simp] theorem State.setBytes_latch (bs : List Byte) : ∀ (s : State) (a : Nat), (s.setBytes a bs).latch = s.latch := by
  induction bs with
  | nil => intros; rfl
  | cons b bs ih => intro s a; simp [State.setBytes, ih]
@[simp] theorem State.setBytes_rnd (bs : List Byte) : ∀ (s : State) (a : Nat), (s.setBytes a bs).rnd = s.rnd := by
  induction bs with
  | nil => intros; rfl
  | cons b bs ih => intro s a; simp [State.setBytes, ih]
@[simp] theorem State.setBytes_report (bs : List Byte) : ∀ (s : State) (a : Nat), (s.setBytes a bs).report = s.report := by
  induction bs with
  | nil => intros; rfl
  | cons b bs ih => intro s a; simp [State.setBytes, ih]
@[simp] theorem State.setBytes_schedule (bs : List Byte) : ∀ (s : State) (a : Nat), (s.setBytes a bs).schedule = s.schedule := by
  induction bs with
  | nil => intros; rfl
  | cons b bs ih => intro s a; simp [State.setBytes, ih]
@[simp] theorem State.setBytes_freeCount (bs : List Byte) : ∀ (s : State) (a : Nat), (s.setBytes a bs).freeCount = s.freeCount := by
  induction bs with
  | nil => intros; rfl
  | cons b bs ih => intro s a; simp [State.setBytes, ih]
@[simp] theorem State.setBytes_cfg (bs : List Byte) : ∀ (s : State) (a : Nat), (s.setBytes a bs).cfg = s.cfg := by
  induction bs with
  | nil => intros; rfl
  | cons b bs ih => intro s a; simp [State.setBytes, ih]

/-! The reads of registers and bytes after an update. -/

theorem State.readV_writeV (x r : RegIdx) (b : Byte) :
    (s.writeV x b).readV r = if r = x then b else s.readV r := by
  simp only [State.readV, State.writeV_v, Fin.getElem_fin, Vector.getElem_set, Fin.ext_iff, eq_comm]

@[simp] theorem State.readV_writeV_self (x : RegIdx) (b : Byte) : (s.writeV x b).readV x = b := by
  simp [State.readV_writeV]

@[simp] theorem State.readV_writeRegs (bs : List Byte) (r : RegIdx) :
    (s.writeRegs bs).readV r = bs[r.val]?.getD (s.readV r) := by
  simp [State.readV, State.writeRegs]

/-- The register file after a flag-writing instruction whose destination is not VF: the result and the flag, whatever
the write order (R141). -/
theorem State.readV_writeResultAndFlag_of_ne {x : RegIdx} (hx : x ≠ flagReg) (r : RegIdx) (b : Byte) (f : Bool) :
    (s.writeResultAndFlag x b f).readV r
      = if r = x then b else if r = flagReg then flagByte f else s.readV r := by
  unfold State.writeResultAndFlag
  cases s.cfg.vfWriteOrder
  · by_cases h₁ : r = x <;> by_cases h₂ : r = flagReg <;> simp_all [State.readV_writeV]
  · by_cases h₁ : r = x <;> by_cases h₂ : r = flagReg <;> simp_all [State.readV_writeV]

/-- With the flag written last VF holds the flag, whatever the destination (R141). -/
theorem State.readV_flag_of_flagLast (h : s.cfg.vfWriteOrder = .flagLast) (x : RegIdx) (b : Byte) (f : Bool) :
    (s.writeResultAndFlag x b f).readV flagReg = flagByte f := by
  simp [State.writeResultAndFlag, h]

/-- A register that is neither the destination nor VF keeps its value under a flag-writing instruction. -/
theorem State.readV_writeResultAndFlag_other (x r : RegIdx) (b : Byte) (f : Bool) (hx : r ≠ x) (hf : r ≠ flagReg) :
    (s.writeResultAndFlag x b f).readV r = s.readV r := by
  unfold State.writeResultAndFlag
  cases s.cfg.vfWriteOrder <;> simp [State.readV_writeV, hx, hf]

@[simp] theorem State.readV_setI (a : Word) (r : RegIdx) : (s.setI a).readV r = s.readV r := rfl
@[simp] theorem State.readV_setDt (b : Byte) (r : RegIdx) : (s.setDt b).readV r = s.readV r := rfl
@[simp] theorem State.readV_setSt (b : Byte) (r : RegIdx) : (s.setSt b).readV r = s.readV r := rfl
@[simp] theorem State.readV_setFb (fb : Framebuffer) (r : RegIdx) : (s.setFb fb).readV r = s.readV r := rfl
@[simp] theorem State.readV_finish (a : Word) (r : RegIdx) : (s.finish a).readV r = s.readV r := rfl
@[simp] theorem State.readV_next (r : RegIdx) : s.next.readV r = s.readV r := rfl
@[simp] theorem State.readV_skip (r : RegIdx) : s.skip.readV r = s.readV r := rfl
@[simp] theorem State.readV_wait (r : RegIdx) : s.wait.readV r = s.readV r := rfl
@[simp] theorem State.readV_push (a : Word) (r : RegIdx) : (s.push a).readV r = s.readV r := rfl
@[simp] theorem State.readV_pop (r : RegIdx) : s.pop.readV r = s.readV r := rfl
@[simp] theorem State.readV_setByte (a : Nat) (b : Byte) (r : RegIdx) : (s.setByte a b).readV r = s.readV r := rfl
@[simp] theorem State.readV_takeAction (rest : List HostAction) (r : RegIdx) : (s.takeAction rest).readV r = s.readV r := rfl
@[simp] theorem State.readV_present (l : Latch) (b : Byte) (r : RegIdx) : (s.present l b).readV r = s.readV r := rfl
@[simp] theorem State.readV_presentFree (r : RegIdx) : s.presentFree.readV r = s.readV r := rfl
@[simp] theorem State.readV_skipIf (c : Bool) (r : RegIdx) : (s.skipIf c).readV r = s.readV r := by cases c <;> rfl
@[simp] theorem State.readV_setBytes (a : Nat) (bs : List Byte) (r : RegIdx) : (s.setBytes a bs).readV r = s.readV r := by
  simp [State.readV]

@[simp] theorem State.byteAt_writeV (x : RegIdx) (b : Byte) (a : Nat) : (s.writeV x b).byteAt a = s.byteAt a := rfl
@[simp] theorem State.byteAt_writeRegs (bs : List Byte) (a : Nat) : (s.writeRegs bs).byteAt a = s.byteAt a := rfl
@[simp] theorem State.byteAt_setI (w : Word) (a : Nat) : (s.setI w).byteAt a = s.byteAt a := rfl
@[simp] theorem State.byteAt_setDt (b : Byte) (a : Nat) : (s.setDt b).byteAt a = s.byteAt a := rfl
@[simp] theorem State.byteAt_setSt (b : Byte) (a : Nat) : (s.setSt b).byteAt a = s.byteAt a := rfl
@[simp] theorem State.byteAt_setFb (fb : Framebuffer) (a : Nat) : (s.setFb fb).byteAt a = s.byteAt a := rfl
@[simp] theorem State.byteAt_finish (w : Word) (a : Nat) : (s.finish w).byteAt a = s.byteAt a := rfl
@[simp] theorem State.byteAt_next (a : Nat) : s.next.byteAt a = s.byteAt a := rfl
@[simp] theorem State.byteAt_skip (a : Nat) : s.skip.byteAt a = s.byteAt a := rfl
@[simp] theorem State.byteAt_wait (a : Nat) : s.wait.byteAt a = s.byteAt a := rfl
@[simp] theorem State.byteAt_push (w : Word) (a : Nat) : (s.push w).byteAt a = s.byteAt a := rfl
@[simp] theorem State.byteAt_pop (a : Nat) : s.pop.byteAt a = s.byteAt a := rfl
@[simp] theorem State.byteAt_takeAction (rest : List HostAction) (a : Nat) : (s.takeAction rest).byteAt a = s.byteAt a := rfl
@[simp] theorem State.byteAt_present (l : Latch) (r : Byte) (a : Nat) : (s.present l r).byteAt a = s.byteAt a := rfl
@[simp] theorem State.byteAt_presentFree (a : Nat) : s.presentFree.byteAt a = s.byteAt a := rfl
@[simp] theorem State.byteAt_skipIf (c : Bool) (a : Nat) : (s.skipIf c).byteAt a = s.byteAt a := by cases c <;> rfl
@[simp] theorem State.byteAt_writeResultAndFlag (x : RegIdx) (r : Byte) (f : Bool) (a : Nat) :
    (s.writeResultAndFlag x r f).byteAt a = s.byteAt a := by simp [State.byteAt]

end Sys2Proof.Machine
end

