-- ==== Sys2Proof/Laws/Memory.lean ====
section
/-! SUPPORT. The laws of memory: a read after a write, the canonical form under every operation, and the ranged accesses
of the memory controller (20_memory.md rules R51 to R56). The read laws hold of every list, canonical or not. -/

namespace Sys2Proof.Machine

variable (c : Config)

theorem Memory.read_erase (m : Memory) (a b : Nat) :
    Memory.read c (m.erase a) b = if b = a then constructedByte c b else Memory.read c m b := by
  induction m with
  | nil => simp [Memory.erase, Memory.read]
  | cons e m ih =>
    obtain ⟨k, w⟩ := e
    by_cases hk : a = k
    · subst hk
      by_cases hb : b = a
      · subst hb; simpa [Memory.erase] using ih
      · simp [Memory.erase, Memory.read, ih, hb]
    · by_cases hb : b = k
      · subst hb; simp [Memory.erase, Memory.read, hk, Ne.symm hk]
      · simp [Memory.erase, Memory.read, ih, hk, hb]

theorem Memory.read_insert (m : Memory) (a : Nat) (v : Byte) (b : Nat) (hm : a ∉ m.map Prod.fst) :
    Memory.read c (m.insert a v) b = if b = a then v else Memory.read c m b := by
  induction m with
  | nil => simp [Memory.insert, Memory.read]
  | cons e m ih =>
    obtain ⟨k, w⟩ := e
    simp only [List.map_cons, List.mem_cons, not_or] at hm
    by_cases hk : a < k
    · simp [Memory.insert, Memory.read, hk]
    · by_cases hb : b = k
      · subst hb; simp [Memory.insert, Memory.read, hk, Ne.symm hm.1]
      · simp [Memory.insert, Memory.read, hk, hb, ih hm.2]

theorem Memory.not_mem_erase (m : Memory) (a : Nat) : a ∉ (m.erase a).map Prod.fst := by
  induction m with
  | nil => simp [Memory.erase]
  | cons e m ih =>
    obtain ⟨k, w⟩ := e
    by_cases hk : a = k <;> simp_all [Memory.erase]

/-- A read after a write: the value written at that address, what was there at every other one (R52). -/
theorem Memory.read_write (m : Memory) (a b : Nat) (v : Byte) :
    Memory.read c (Memory.write c m a v) b = if b = a then v else Memory.read c m b := by
  unfold Memory.write
  split_ifs with hv hb hb
  · subst hb; simp [Memory.read_erase, hv]
  · simp [Memory.read_erase, hb]
  · subst hb
    rw [Memory.read_insert c _ _ _ _ (Memory.not_mem_erase m b), if_pos rfl]
  · rw [Memory.read_insert c _ _ _ _ (Memory.not_mem_erase m a), if_neg hb,
      Memory.read_erase, if_neg hb]

/-! ## The canonical form -/

theorem Memory.wfFrom_mono {m : Memory} {low low' : Nat} (h : Memory.wfFrom c low m = true) (hl : low' ≤ low) :
    Memory.wfFrom c low' m = true := by
  cases m with
  | nil => rfl
  | cons e m =>
    obtain ⟨k, w⟩ := e
    simp only [Memory.wfFrom, Bool.and_eq_true, decide_eq_true_eq] at h ⊢
    exact ⟨⟨⟨hl.trans h.1.1.1, h.1.1.2⟩, h.1.2⟩, h.2⟩

theorem Memory.wfFrom_erase {m : Memory} {low : Nat} (a : Nat) (h : Memory.wfFrom c low m = true) :
    Memory.wfFrom c low (m.erase a) = true := by
  induction m generalizing low with
  | nil => rfl
  | cons e m ih =>
    obtain ⟨k, w⟩ := e
    simp only [Memory.wfFrom, Bool.and_eq_true, decide_eq_true_eq] at h
    by_cases hk : a = k
    · simp only [Memory.erase, hk, if_true]
      subst hk
      exact Memory.wfFrom_mono c (ih h.2) (h.1.1.1.trans (Nat.le_succ _))
    · simp only [Memory.erase, hk, if_false, Memory.wfFrom, Bool.and_eq_true, decide_eq_true_eq]
      exact ⟨h.1, ih h.2⟩

theorem Memory.wfFrom_insert {m : Memory} {low a : Nat} {v : Byte} (h : Memory.wfFrom c low m = true) (hl : low ≤ a)
    (ha : a < memSize) (hv : v ≠ constructedByte c a) (hm : a ∉ m.map Prod.fst) :
    Memory.wfFrom c low (m.insert a v) = true := by
  induction m generalizing low with
  | nil => simp [Memory.insert, Memory.wfFrom, hl, ha, hv]
  | cons e m ih =>
    obtain ⟨k, w⟩ := e
    simp only [List.map_cons, List.mem_cons, not_or] at hm
    simp only [Memory.wfFrom, Bool.and_eq_true, decide_eq_true_eq] at h
    by_cases hk : a < k
    · simp only [Memory.insert, hk, if_true, Memory.wfFrom, Bool.and_eq_true, decide_eq_true_eq, bne_iff_ne]
      simp only [bne_iff_ne] at h
      exact ⟨⟨⟨hl, ha⟩, hv⟩, ⟨⟨hk, h.1.1.2⟩, h.1.2⟩, h.2⟩
    · simp only [Memory.insert, hk, if_false, Memory.wfFrom, Bool.and_eq_true, decide_eq_true_eq]
      exact ⟨h.1, ih h.2 (by omega) hm.2⟩

/-- A write inside the address space keeps the canonical form. -/
theorem Memory.wf_write {m : Memory} {a : Nat} (v : Byte) (h : Memory.wf c m = true) (ha : a < memSize) :
    Memory.wf c (Memory.write c m a v) = true := by
  unfold Memory.write
  split_ifs with hv
  · exact Memory.wfFrom_erase c a h
  · exact Memory.wfFrom_insert c (Memory.wfFrom_erase c a h) (Nat.zero_le _) ha hv (Memory.not_mem_erase m a)

/-- The memory of a constructed machine has the canonical form. -/
theorem Memory.wf_construct : Memory.wf c (State.construct c).mem = true := rfl

/-! ## The state's bytes -/

variable (s : State)

theorem State.byteAt_setByte (a b : Nat) (v : Byte) :
    (s.setByte a v).byteAt b = if b = a then v else s.byteAt b := Memory.read_write s.cfg s.mem a b v

/-- What a byte reads as after a ranged write: the byte written when the address is in the range, else as before. -/
theorem State.byteAt_setBytes (bs : List Byte) (s : State) (a b : Nat) :
    (s.setBytes a bs).byteAt b = if a ≤ b then bs[b - a]?.getD (s.byteAt b) else s.byteAt b := by
  induction bs generalizing s a with
  | nil => simp [State.setBytes]
  | cons w bs ih =>
    rw [State.setBytes, ih, State.byteAt_setByte]
    by_cases h1 : a + 1 ≤ b
    · have h2 : b - a = (b - (a + 1)) + 1 := by omega
      have h3 : a ≤ b := by omega
      have h4 : b ≠ a := by omega
      simp [h1, h2, h3, h4]
    · by_cases h2 : b = a
      · subst h2; simp
      · have h3 : ¬ a ≤ b := by omega
        simp [h1, h2, h3]

/-- A ranged write inside the address space keeps the canonical form. -/
theorem State.wf_setBytes (bs : List Byte) (s : State) (a : Nat) (h : Memory.wf s.cfg s.mem = true)
    (hr : a + bs.length ≤ memSize) : Memory.wf s.cfg (s.setBytes a bs).mem = true := by
  induction bs generalizing s a with
  | nil => exact h
  | cons w bs ih =>
    simp only [List.length_cons] at hr
    exact ih (s.setByte a w) (a + 1) (Memory.wf_write s.cfg w h (by omega)) (by omega)

@[simp] theorem State.length_bytesFrom (a n : Nat) : (s.bytesFrom a n).length = n := by
  induction n generalizing a with
  | zero => rfl
  | succ n ih => simp [State.bytesFrom, ih]

theorem State.getElem?_bytesFrom (a n k : Nat) :
    (s.bytesFrom a n)[k]? = if k < n then some (s.byteAt (a + k)) else none := by
  induction n generalizing a k with
  | zero => simp [State.bytesFrom]
  | succ n ih =>
    cases k with
    | zero => simp [State.bytesFrom]
    | succ k => simp [State.bytesFrom, ih, Nat.add_assoc, Nat.add_comm 1 k]

/-! ## The ranged accesses -/

theorem rangeExists_iff (a n : Nat) : rangeExists a n = true ↔ n = 0 ∨ a + n ≤ memSize := by
  simp [rangeExists]

/-- Everything a ranged read can do (R51, R157). -/
theorem State.loadRange_eq (a n : Nat) :
    s.loadRange a n = if n = 0 ∨ a + n ≤ memSize then .ok (s.bytesFrom a n) else .error .outOfBounds := by
  simp only [State.loadRange, rangeExists_iff]

/-- Everything a ranged write can do (R52, R157). -/
theorem State.storeRange_eq (a : Nat) (bs : List Byte) :
    s.storeRange a bs
      = if bs.length = 0 ∨ a + bs.length ≤ memSize then .ok (s.setBytes a bs) else .error .outOfBounds := by
  simp only [State.storeRange, rangeExists_iff]

theorem State.loadRange_ok {a n : Nat} (h : n = 0 ∨ a + n ≤ memSize) : s.loadRange a n = .ok (s.bytesFrom a n) := by
  rw [State.loadRange_eq, if_pos h]

theorem State.loadRange_error {a n : Nat} (h : 0 < n ∧ memSize < a + n) : s.loadRange a n = .error .outOfBounds := by
  rw [State.loadRange_eq, if_neg (by omega)]

theorem State.storeRange_ok {a : Nat} {bs : List Byte} (h : bs.length = 0 ∨ a + bs.length ≤ memSize) :
    s.storeRange a bs = .ok (s.setBytes a bs) := by
  rw [State.storeRange_eq, if_pos h]

theorem State.storeRange_error {a : Nat} {bs : List Byte} (h : 0 < bs.length ∧ memSize < a + bs.length) :
    s.storeRange a bs = .error .outOfBounds := by
  rw [State.storeRange_eq, if_neg (by omega)]

@[simp] theorem State.length_regsThrough (x : RegIdx) : (s.regsThrough x).length = x.val + 1 := by
  have := x.isLt
  simp only [State.regsThrough, List.length_take, Vector.length_toList]
  omega

theorem State.getElem?_regsThrough (x : RegIdx) (k : Nat) :
    (s.regsThrough x)[k]? = if h : k ≤ x.val then some (s.readV ⟨k, by omega⟩) else none := by
  have := x.isLt
  by_cases h : k ≤ x.val
  · simp [State.regsThrough, State.readV, h, Nat.lt_succ_of_le h]
  · simp [State.regsThrough, h]

@[simp] theorem length_decimalDigits (b : Byte) : (decimalDigits b).length = 3 := rfl

end Sys2Proof.Machine
end

