-- ==== Sys2Proof/Laws/Exec.lean ====
section
/-! SUPPORT. What the instructions with an error or a wait can do: if exec answers next t, then the state was one in
which the instruction completes, and t is the one next state. An instruction not named here completes from every state,
in the state its meaning writes out. -/

namespace Sys2Proof.Machine

variable {s t : State}

/-- The key a register value names: itself below 16, none above (R182). -/
theorem keyOfByte_cases (b : Byte) :
    (15 < b.toNat ∧ keyOfByte b = none) ∨ ∃ h : b.toNat < 16, keyOfByte b = some ⟨b.toNat, h⟩ := by
  by_cases h : b.toNat < 16
  · exact .inr ⟨h, by simp [keyOfByte, h]⟩
  · exact .inl ⟨by omega, by simp [keyOfByte, h]⟩

/-- A key is selected exactly when one is pressed, and the selected key is pressed (R183). -/
theorem State.selectedKey_cases (s : State) :
    (∃ k, s.selectedKey = some k ∧ s.latch[k] = true) ∨ (s.selectedKey = none ∧ ∀ k : Key, s.latch[k] = false) := by
  cases h : s.selectedKey with
  | some k => exact .inl ⟨k, rfl, by have := List.find?_some h; exact this⟩
  | none =>
    refine .inr ⟨rfl, fun k => ?_⟩
    rw [State.selectedKey, List.find?_eq_none] at h
    simpa [State.keyPressed] using h k (by simp [keyOrder])

/-- The key KEY_SELECT lists for the latch is the one selected, when it is pressed (R183). -/
theorem State.selectedKey_of_listed {k : Key} {rest : List Key} (s : State)
    (h : (s.cfg.keySelect.filter fun e => e.1 == s.latch).map Prod.snd = k :: rest) (hp : s.latch[k] = true) :
    s.selectedKey = some k := by
  rw [State.selectedKey, keyOrder, h, List.cons_append]
  exact List.find?_cons_of_pos hp

/-- With KEY_SELECT empty, the value R7 takes, the selected key is the lowest pressed one (R184(b)). -/
theorem State.selectedKey_lowest (s : State) (hc : s.cfg.keySelect = []) {k : Key} (h : s.selectedKey = some k) (j : Key)
    (hj : s.latch[j] = true) : k ≤ j := by
  rw [State.selectedKey, keyOrder, hc] at h
  simp only [List.filter_nil, List.map_nil, List.nil_append, List.find?_eq_some_iff_append] at h
  obtain ⟨-, as, bs, hl, hn⟩ := h
  by_contra hlt
  have hmem : j ∈ as ++ k :: bs := hl ▸ List.mem_finRange j
  have hs : (as ++ k :: bs).Pairwise (· < ·) := hl ▸ List.pairwise_lt_finRange 16
  rcases List.mem_append.mp hmem with ha | hb
  · simpa [State.keyPressed, hj] using hn j ha
  · rcases List.mem_cons.mp hb with rfl | hb
    · exact hlt le_rfl
    · exact hlt (List.rel_of_pairwise_cons (List.pairwise_append.mp hs).2.1 hb).le

/-- Every choice of a key for each latch has a table: KEY_SELECT may be any function (R7, R184(b)). -/
theorem exists_keySelect (choose : Latch → Key) :
    ∃ table : List (Latch × Key), ∀ latch, (table.filter fun e => e.1 == latch).map Prod.snd = [choose latch] := by
  have hfin : Finite Latch :=
    Finite.of_injective (fun (l : Latch) (k : Fin 16) => l[k]) fun a b h => by
      ext i hi
      exact congrFun h ⟨i, hi⟩
  have := Fintype.ofFinite Latch
  refine ⟨Finset.univ.toList.map fun l => (l, choose l), fun latch => ?_⟩
  rw [List.filter_map, List.map_map]
  have hf : (Finset.univ : Finset Latch).toList.filter ((fun e : Latch × Key => e.1 == latch) ∘ fun l => (l, choose l))
      = [latch] := by
    have := (Finset.nodup_toList (Finset.univ : Finset Latch)).filter (fun l => l == latch)
    refine List.perm_singleton.mp ((List.perm_ext_iff_of_nodup this (List.nodup_singleton _)).mpr fun l => ?_)
    simp
  rw [hf]
  rfl

theorem exec_ret_next (h : exec .ret s = .next t) :
    ∃ a, s.stackEmpty = false ∧ s.stackTop = some a ∧ t = s.pop.finish a := by
  simp only [exec, execRet] at h
  split_ifs at h with he
  · simp [raise] at h
  · cases ht : s.stackTop with
    | none => simp [ht, raise] at h
    | some a => exact ⟨a, by simpa using he, rfl, by simpa [ht] using h.symm⟩

theorem exec_call_next {nnn : Literal12} (h : exec (.call nnn) s = .next t) :
    s.stackFull = false ∧ t = (s.push (s.pc + 2)).finish (zext12 nnn) := by
  simp only [exec, execCall] at h
  split_ifs at h with he
  · simp [raise] at h
  · exact ⟨by simpa using he, by simpa using h.symm⟩

theorem exec_drw_next {x y : RegIdx} {n : Fin 16} (h : exec (.drw x y n) s = .next t) :
    (n.val = 0 ∨ s.i.toNat + n.val ≤ memSize) ∧
    t = ((s.setFb (drawPixels s.fb
            (spritePixels (s.readV x).toNat (s.readV y).toNat (s.bytesFrom s.i.toNat n.val)) s.fb)).writeV flagReg
          (flagByte (collides s.fb
            (spritePixels (s.readV x).toNat (s.readV y).toNat (s.bytesFrom s.i.toNat n.val))))).next := by
  simp only [exec, execDrw] at h
  by_cases hr : n.val = 0 ∨ s.i.toNat + n.val ≤ memSize
  · rw [s.loadRange_ok hr] at h
    exact ⟨hr, by simpa using h.symm⟩
  · rw [s.loadRange_error (by omega)] at h
    simp [raise] at h

theorem exec_ldBVx_next {x : RegIdx} (h : exec (.ldBVx x) s = .next t) :
    s.i.toNat + 3 ≤ memSize ∧ t = (s.setBytes s.i.toNat (decimalDigits (s.readV x))).next := by
  have hl : (decimalDigits (s.readV x)).length = 3 := rfl
  simp only [exec, execLdBVx] at h
  by_cases hr : s.i.toNat + 3 ≤ memSize
  · rw [s.storeRange_ok (by omega)] at h
    exact ⟨hr, by simpa using h.symm⟩
  · rw [s.storeRange_error (by omega)] at h
    simp [raise] at h

theorem exec_ldMemVx_next {x : RegIdx} (h : exec (.ldMemVx x) s = .next t) :
    s.i.toNat + (x.val + 1) ≤ memSize ∧ t = (s.setBytes s.i.toNat (s.regsThrough x)).next := by
  have hl := s.length_regsThrough x
  simp only [exec, execLdMemVx] at h
  by_cases hr : s.i.toNat + (x.val + 1) ≤ memSize
  · rw [s.storeRange_ok (by omega)] at h
    exact ⟨hr, by simpa using h.symm⟩
  · rw [s.storeRange_error (by omega)] at h
    simp [raise] at h

theorem exec_ldVxMem_next {x : RegIdx} (h : exec (.ldVxMem x) s = .next t) :
    s.i.toNat + (x.val + 1) ≤ memSize ∧ t = (s.writeRegs (s.bytesFrom s.i.toNat (x.val + 1))).next := by
  simp only [exec, execLdVxMem] at h
  by_cases hr : s.i.toNat + (x.val + 1) ≤ memSize
  · rw [s.loadRange_ok (by omega)] at h
    exact ⟨hr, by simpa using h.symm⟩
  · rw [s.loadRange_error (by omega)] at h
    simp [raise] at h

theorem exec_skp_next {x : RegIdx} (h : exec (.skp x) s = .next t) :
    ∃ hb : (s.readV x).toNat < 16, t = s.skipIf (s.keyPressed ⟨(s.readV x).toNat, hb⟩) := by
  simp only [exec, execSkp] at h
  rcases keyOfByte_cases (s.readV x) with ⟨_, hk⟩ | ⟨hb, hk⟩ <;> rw [hk] at h
  · simp [raise] at h
  · exact ⟨hb, by simpa using h.symm⟩

theorem exec_sknp_next {x : RegIdx} (h : exec (.sknp x) s = .next t) :
    ∃ hb : (s.readV x).toNat < 16, t = s.skipIf (!s.keyPressed ⟨(s.readV x).toNat, hb⟩) := by
  simp only [exec, execSknp] at h
  rcases keyOfByte_cases (s.readV x) with ⟨_, hk⟩ | ⟨hb, hk⟩ <;> rw [hk] at h
  · simp [raise] at h
  · exact ⟨hb, by simpa using h.symm⟩

theorem exec_ldVxK_next {x : RegIdx} (h : exec (.ldVxK x) s = .next t) :
    (∃ k, s.selectedKey = some k ∧ s.latch[k] = true ∧ t = (s.writeV x (byteOfKey k)).next) ∨
    ((∀ k : Key, s.latch[k] = false) ∧ t = s.wait) := by
  simp only [exec, execLdVxK] at h
  rcases s.selectedKey_cases with ⟨k, hk, hp⟩ | ⟨hk, hp⟩ <;> simp only [hk] at h
  · exact .inl ⟨k, hk, hp, by simpa using h.symm⟩
  · exact .inr ⟨hp, by simpa using h.symm⟩

end Sys2Proof.Machine
end

