-- ==== Sys2Proof/Laws/PerInstr.lean ====
section
/-! SUPPORT. Per-instruction laws of the syntax. EncodeMatchesRow: the word of every instruction matches the
instruction's own row of the table of 30_encoding.md rule R84. -/

namespace Sys2Proof.Laws.EncodeMatchesRow

/-- The encoding of the instruction matches the row of its number (R84). -/
def Statement (i : Instr) : Prop := ∃ row ∈ opcodeRows, row.1 = i.rowNumber ∧ matchesRow (encode i) row = true

/-- A row of the table at a position, matched by a word that gives the row's value under the row's mask. -/
theorem of_row {i : Instr} (k : Fin 34) (hk : (opcodeRows[k]'k.isLt).1 = i.rowNumber)
    (h : encode i &&& (opcodeRows[k]'k.isLt).2.1 = (opcodeRows[k]'k.isLt).2.2) : Statement i :=
  ⟨opcodeRows[k]'k.isLt, List.getElem_mem _, hk, by simp only [matchesRow, h, beq_self_eq_true]⟩

theorem cls : Statement .cls := of_row 0 rfl rfl
theorem ret : Statement .ret := of_row 1 rfl rfl
theorem jp (nnn : Literal12) : Statement (.jp nnn) :=
  of_row 2 rfl ((encodeNnn_mask _ _).trans rfl)
theorem call (nnn : Literal12) : Statement (.call nnn) :=
  of_row 3 rfl ((encodeNnn_mask _ _).trans rfl)
theorem seVxKk (x : RegIdx) (kk : Byte) : Statement (.seVxKk x kk) :=
  of_row 4 rfl ((encodeXkk_mask_op _ _ _).trans rfl)
theorem sneVxKk (x : RegIdx) (kk : Byte) : Statement (.sneVxKk x kk) :=
  of_row 5 rfl ((encodeXkk_mask_op _ _ _).trans rfl)
theorem seVxVy (x : RegIdx) (y : RegIdx) : Statement (.seVxVy x y) :=
  of_row 6 rfl ((encodeXyn_mask_n _ _ _ _).trans rfl)
theorem ldVxKk (x : RegIdx) (kk : Byte) : Statement (.ldVxKk x kk) :=
  of_row 7 rfl ((encodeXkk_mask_op _ _ _).trans rfl)
theorem addVxKk (x : RegIdx) (kk : Byte) : Statement (.addVxKk x kk) :=
  of_row 8 rfl ((encodeXkk_mask_op _ _ _).trans rfl)
theorem ldVxVy (x : RegIdx) (y : RegIdx) : Statement (.ldVxVy x y) :=
  of_row 9 rfl ((encodeXyn_mask_n _ _ _ _).trans rfl)
theorem orVxVy (x : RegIdx) (y : RegIdx) : Statement (.orVxVy x y) :=
  of_row 10 rfl ((encodeXyn_mask_n _ _ _ _).trans rfl)
theorem andVxVy (x : RegIdx) (y : RegIdx) : Statement (.andVxVy x y) :=
  of_row 11 rfl ((encodeXyn_mask_n _ _ _ _).trans rfl)
theorem xorVxVy (x : RegIdx) (y : RegIdx) : Statement (.xorVxVy x y) :=
  of_row 12 rfl ((encodeXyn_mask_n _ _ _ _).trans rfl)
theorem addVxVy (x : RegIdx) (y : RegIdx) : Statement (.addVxVy x y) :=
  of_row 13 rfl ((encodeXyn_mask_n _ _ _ _).trans rfl)
theorem subVxVy (x : RegIdx) (y : RegIdx) : Statement (.subVxVy x y) :=
  of_row 14 rfl ((encodeXyn_mask_n _ _ _ _).trans rfl)
theorem shrVxVy (x : RegIdx) (y : RegIdx) : Statement (.shrVxVy x y) :=
  of_row 15 rfl ((encodeXyn_mask_n _ _ _ _).trans rfl)
theorem subnVxVy (x : RegIdx) (y : RegIdx) : Statement (.subnVxVy x y) :=
  of_row 16 rfl ((encodeXyn_mask_n _ _ _ _).trans rfl)
theorem shlVxVy (x : RegIdx) (y : RegIdx) : Statement (.shlVxVy x y) :=
  of_row 17 rfl ((encodeXyn_mask_n _ _ _ _).trans rfl)
theorem sneVxVy (x : RegIdx) (y : RegIdx) : Statement (.sneVxVy x y) :=
  of_row 18 rfl ((encodeXyn_mask_n _ _ _ _).trans rfl)
theorem ldINnn (nnn : Literal12) : Statement (.ldINnn nnn) :=
  of_row 19 rfl ((encodeNnn_mask _ _).trans rfl)
theorem jpV0 (nnn : Literal12) : Statement (.jpV0 nnn) :=
  of_row 20 rfl ((encodeNnn_mask _ _).trans rfl)
theorem rndVxKk (x : RegIdx) (kk : Byte) : Statement (.rndVxKk x kk) :=
  of_row 21 rfl ((encodeXkk_mask_op _ _ _).trans rfl)
theorem drw (x : RegIdx) (y : RegIdx) (n : Fin 16) : Statement (.drw x y n) :=
  of_row 22 rfl ((encodeXyn_mask_op _ _ _ _).trans rfl)
theorem skp (x : RegIdx) : Statement (.skp x) :=
  of_row 23 rfl ((encodeXkk_mask_kk _ _ _).trans rfl)
theorem sknp (x : RegIdx) : Statement (.sknp x) :=
  of_row 24 rfl ((encodeXkk_mask_kk _ _ _).trans rfl)
theorem ldVxDt (x : RegIdx) : Statement (.ldVxDt x) :=
  of_row 25 rfl ((encodeXkk_mask_kk _ _ _).trans rfl)
theorem ldVxK (x : RegIdx) : Statement (.ldVxK x) :=
  of_row 26 rfl ((encodeXkk_mask_kk _ _ _).trans rfl)
theorem ldDtVx (x : RegIdx) : Statement (.ldDtVx x) :=
  of_row 27 rfl ((encodeXkk_mask_kk _ _ _).trans rfl)
theorem ldStVx (x : RegIdx) : Statement (.ldStVx x) :=
  of_row 28 rfl ((encodeXkk_mask_kk _ _ _).trans rfl)
theorem addIVx (x : RegIdx) : Statement (.addIVx x) :=
  of_row 29 rfl ((encodeXkk_mask_kk _ _ _).trans rfl)
theorem ldFVx (x : RegIdx) : Statement (.ldFVx x) :=
  of_row 30 rfl ((encodeXkk_mask_kk _ _ _).trans rfl)
theorem ldBVx (x : RegIdx) : Statement (.ldBVx x) :=
  of_row 31 rfl ((encodeXkk_mask_kk _ _ _).trans rfl)
theorem ldMemVx (x : RegIdx) : Statement (.ldMemVx x) :=
  of_row 32 rfl ((encodeXkk_mask_kk _ _ _).trans rfl)
theorem ldVxMem (x : RegIdx) : Statement (.ldVxMem x) :=
  of_row 33 rfl ((encodeXkk_mask_kk _ _ _).trans rfl)

end Sys2Proof.Laws.EncodeMatchesRow
end

