-- ==== Sys2Proof/Laws/Step.lean ====
section
/-! SUPPORT. What a step can do, said once: the presented state, the fetch and decode, the four kinds of action. -/

namespace Sys2Proof.Machine

variable {s s₁ : State}

/-- Presenting the inputs of a cycle changes the inputs, the schedule and the counter, and nothing else. -/
theorem State.cycleStart_eq (h : s.cycleStart = some s₁) :
    s₁ = { s with latch := s₁.latch, rnd := s₁.rnd, schedule := s.schedule.tail, freeCount := s₁.freeCount } := by
  unfold State.cycleStart at h
  split at h <;> simp_all [State.presentFree, State.takeAction, State.present] <;> subst h <;> simp

/-- The state an error leaves is the state before the operation, but for the schedule, the counter and the report
(R207, R40). -/
theorem State.afterError_eq (s : State) (e : Fault) :
    s.afterError e
      = { s with schedule := s.schedule.tail, freeCount := (s.afterError e).freeCount, report := .error e } := by
  unfold State.afterError
  split <;> simp_all

/-- A step whose action is a cycle is that cycle. -/
theorem step_of_cycleStart (h : s.cycleStart = some s₁) : step s = runCycle s₁ := by
  unfold State.cycleStart at h
  unfold step
  split at h <;> simp_all

/-- The fetch and decode read memory, PC and CLS_ENABLED, and nothing else. -/
theorem State.fetchInstr_congr {s t : State} (hm : t.mem = s.mem) (hc : t.cfg = s.cfg) (hp : t.pc = s.pc) :
    t.fetchInstr = s.fetchInstr := by
  simp only [State.fetchInstr, State.memRead16, State.loadRange, State.bytesFrom, State.byteAt, hm, hc, hp]

/-- Everything the fetch read can do (R53). -/
theorem State.memRead16_eq (s : State) (a : Nat) :
    s.memRead16 a = if a + 2 ≤ memSize then .ok (wordOfBytes (s.byteAt a) (s.byteAt (a + 1))) else .error .outOfBounds := by
  unfold State.memRead16
  rw [State.loadRange_eq]
  by_cases h : a + 2 ≤ memSize <;> simp [h, State.bytesFrom]

/-- A fetch that gives an instruction read it from two bytes inside memory (R202). -/
theorem State.fetchInstr_ok {i : Instr} (h : s.fetchInstr = .ok i) :
    s.pc.toNat + 2 ≤ memSize ∧
    decodeWord s.cfg.clsEnabled (wordOfBytes (s.byteAt s.pc.toNat) (s.byteAt (s.pc.toNat + 1))) = .ok i := by
  unfold State.fetchInstr at h
  rw [State.memRead16_eq] at h
  by_cases hp : s.pc.toNat + 2 ≤ memSize
  · simp only [hp, if_true] at h
    refine ⟨hp, ?_⟩
    split at h <;> simp_all
  · simp [hp] at h

/-- A step that gives a next state is a cycle that ran an instruction, a tick, or a load that fitted. -/
theorem step_next_cases {t : State} (h : step s = .next t) :
    (∃ s₁ i, s.cycleStart = some s₁ ∧ s₁.fetchInstr = .ok i ∧ exec i s₁ = .next t) ∨
    (∃ rest, s.schedule = .tickTimers :: rest ∧
      t = { s with dt := countDown s.dt, st := countDown s.st, schedule := rest, report := .done }) ∨
    (∃ bytes rest, s.schedule = .load bytes :: rest ∧ bytes.length ≤ programCapacity ∧
      t = { (s.takeAction rest).setBytes programBase bytes with report := .done }) := by
  have key : ∀ s₁, s.cycleStart = some s₁ → ∃ s₁ i, s.cycleStart = some s₁ ∧ s₁.fetchInstr = .ok i ∧
      exec i s₁ = .next t := by
    intro s₁ hs
    rw [step_of_cycleStart hs, runCycle] at h
    cases hf : s₁.fetchInstr with
    | ok i => exact ⟨s₁, i, hs, hf, by simpa [hf] using h⟩
    | error e => simp [hf, raise] at h
  cases hsch : s.schedule with
  | nil => exact .inl (key s.presentFree (by simp [State.cycleStart, hsch]))
  | cons a rest =>
    cases a with
    | executeCycle latch rnd => exact .inl (key _ (by simp [State.cycleStart, hsch]; rfl))
    | tickTimers =>
      refine .inr (.inl ⟨rest, rfl, ?_⟩)
      simpa [step, hsch, tickTimers, State.takeAction] using h.symm
    | load bytes =>
      refine .inr (.inr ⟨bytes, rest, rfl, ?_⟩)
      simp only [step, hsch, loadProgram, raise] at h
      split at h
      · cases h
      · rename_i hl
        exact ⟨Nat.le_of_not_lt hl, by simpa using h.symm⟩

end Sys2Proof.Machine
end

