-- ==== Sys2Proof/Tests/Slice0.lean ====
section
/-! SUPPORT. The package's own tests. Expected values come from the spec: the vectors T1 to T144 and H1 to H15 of
95_test_vectors.md, and words written out from the patterns of 30_encoding.md rule R84. Each test is one step on a small
state. Then the witnesses: for every obligation with hypotheses, a state and operands that meet them. -/

namespace Sys2Proof.Tests

open Sys2Proof.Machine

/-- What one looks at in the state after one step; none when the step stops. -/
def after {α : Type} (s : State) (look : State → α) : Option α :=
  match step s with
  | .next t => some (look t)
  | .fault _ => none
  | .refused _ => none

/-- The error a step ends in; none when it gives a next state. -/
def errorOfStep (s : State) : Option Fault :=
  match step s with
  | .next _ => none
  | .fault e => some e
  | .refused _ => none

/-- A state with the named registers forced. -/
def State.withRegs (s : State) (regs : List (RegIdx × Byte)) : State :=
  regs.foldl (fun t p => t.writeV p.1 p.2) s

/-- The reset state with the named registers, I and memory bytes from an address on forced. -/
def base (regs : List (RegIdx × Byte)) (i : Word) (a : Nat) (bytes : List Byte) : State :=
  ((State.withRegs State.reset regs).setI i).setBytes a bytes

/-- The reset state with the named registers forced, about to run the word. -/
def regs (r : List (RegIdx × Byte)) (w : Nat) : State := (State.withRegs State.reset r).withFetchWord 16 w

/-- The latch with exactly the named keys pressed. -/
def keys (ks : List Key) : Latch := Vector.ofFn fun k => decide (k ∈ ks)

/-- The state about to run the word with the named keys pressed and the given random byte. -/
def withInputs (s : State) (w : Nat) (ks : List Key) (rnd : Byte) : State :=
  { s.withFetchWord 16 w with schedule := [.executeCycle (keys ks) rnd] }

/-! ## Well-formedness: the one check there is -/

/-- R86, R173: CLS is ill-formed when CLS_ENABLED is false. -/
theorem test_wellFormed_refuses_cls :
    Instr.wellFormed false .cls = false ∧ Instr.wellFormed true .cls = true := by decide

/-! ## Decoding: every constructor, from a word written out from R84 -/

/-- The words of the family (R84). -/
theorem test_decode_flow :
    decodeTableWord 16 0x00EE = some (.ret) ∧
    decodeTableWord 16 0x1ABC = some (.jp 0xABC) ∧
    decodeTableWord 16 0x2ABC = some (.call 0xABC) ∧
    decodeTableWord 16 0xB300 = some (.jpV0 0x300) := by decide

/-- The words of the family (R84). -/
theorem test_decode_skip :
    decodeTableWord 16 0x3A42 = some (.seVxKk 10 0x42) ∧
    decodeTableWord 16 0x4A42 = some (.sneVxKk 10 0x42) ∧
    decodeTableWord 16 0x5120 = some (.seVxVy 1 2) ∧
    decodeTableWord 16 0x9120 = some (.sneVxVy 1 2) := by decide

/-- The words of the family (R84). -/
theorem test_decode_alu_low :
    decodeTableWord 16 0x6A42 = some (.ldVxKk 10 0x42) ∧
    decodeTableWord 16 0x7A05 = some (.addVxKk 10 0x05) ∧
    decodeTableWord 16 0x8120 = some (.ldVxVy 1 2) ∧
    decodeTableWord 16 0x8121 = some (.orVxVy 1 2) ∧
    decodeTableWord 16 0x8122 = some (.andVxVy 1 2) ∧
    decodeTableWord 16 0x8123 = some (.xorVxVy 1 2) := by decide

/-- The words of the family (R84). -/
theorem test_decode_alu_flag :
    decodeTableWord 16 0x8124 = some (.addVxVy 1 2) ∧
    decodeTableWord 16 0x8125 = some (.subVxVy 1 2) ∧
    decodeTableWord 16 0x8126 = some (.shrVxVy 1 2) ∧
    decodeTableWord 16 0x8127 = some (.subnVxVy 1 2) ∧
    decodeTableWord 16 0x812E = some (.shlVxVy 1 2) := by decide

/-- The words of the family (R84). -/
theorem test_decode_index_memory :
    decodeTableWord 16 0xA123 = some (.ldINnn 0x123) ∧
    decodeTableWord 16 0xF11E = some (.addIVx 1) ∧
    decodeTableWord 16 0xF129 = some (.ldFVx 1) ∧
    decodeTableWord 16 0xF133 = some (.ldBVx 1) ∧
    decodeTableWord 16 0xF255 = some (.ldMemVx 2) ∧
    decodeTableWord 16 0xF265 = some (.ldVxMem 2) := by decide

/-- The words of the family (R84). -/
theorem test_decode_draw :
    decodeTableWord 16 0x00E0 = some (.cls) ∧
    decodeTableWord 16 0xD125 = some (.drw 1 2 5) := by decide

/-- The words of the family (R84). -/
theorem test_decode_input_timer :
    decodeTableWord 16 0xE19E = some (.skp 1) ∧
    decodeTableWord 16 0xE1A1 = some (.sknp 1) ∧
    decodeTableWord 16 0xF30A = some (.ldVxK 3) ∧
    decodeTableWord 16 0xF207 = some (.ldVxDt 2) ∧
    decodeTableWord 16 0xF215 = some (.ldDtVx 2) ∧
    decodeTableWord 16 0xF218 = some (.ldStVx 2) ∧
    decodeTableWord 16 0xC30F = some (.rndVxKk 3 0x0F) := by decide

/-- T25, T26, T64 to T66, T113, T132, T134 to T144: words of no row. -/
theorem test_decode_unknown :
    [0x5121, 0x912F, 0x8128, 0x812D, 0x812F, 0xE19F, 0x0000, 0x00EF, 0x0123, 0x0FFF, 0xE100, 0xE1A2, 0xF100, 0xF11F, 0xF1FF, 0xFFFF, 0xF075, 0xF030].map (decodeTableWord 16)
      = List.replicate 18 none := by decide

/-- T104, T133: 0x00E0 is unknown when CLS_ENABLED is false. -/
theorem test_decode_cls_disabled :
    decodeWord false 0x00E0 = .error (.unknownInstruction 0x00E0) := by decide

/-- T130: big-endian, and the bytes after the word are left over; one byte is no word. -/
theorem test_decode_bytes :
    decodeBytes false [0x12, 0x34, 0x60] = .ok (.jp 0x234, [0x60]) ∧ decodeBytes false [0x12] = .error .truncated := by decide

/-- R82: the encoder writes the words of the table. -/
theorem test_encode_words :
    encode (.jp 0xABC) = 0x1ABC ∧ encode (.shlVxVy 1 2) = 0x812E ∧ encode (.drw 1 2 5) = 0xD125 ∧ encode (.ldVxMem 2) = 0xF265 := by decide

/-! ## Control transfer -/

/-- T1. -/
theorem test_jp :
    after (regs [] 0x1ABC) (·.pc) = some 0xABC := by decide

/-- T3. -/
theorem test_jp_top :
    after (regs [] 0x1FFF) (·.pc) = some 0xFFF := by decide

/-- T7: the last entry is used. -/
theorem test_call :
    after (({ State.reset with pc := 0x250, sp := 14 }).withFetchWord 16 0x2300) (fun t => (t.pc, t.sp, t.stack[15]))
      = some (0x300, 15, 0x252) := by decide

/-- T8. -/
theorem test_call_full :
    errorOfStep (({ State.reset with pc := 0x250, sp := 15 }).withFetchWord 16 0x2300)
      = some .capacityExceeded := by decide

/-- T10: the popped entry is not cleared. -/
theorem test_ret :
    after (({ State.reset with pc := 0x300, sp := 2, stack := State.reset.stack.set 2 0xFFF }).withFetchWord 16 0x00EE)
      (fun t => (t.pc, t.sp, t.stack[2]))
      = some (0xFFF, 1, 0xFFF) := by decide

/-- T6. -/
theorem test_ret_empty :
    errorOfStep (regs [] 0x00EE) = some .capacityExceeded := by decide

/-- T12: no reduction modulo 4096. -/
theorem test_jpV0 :
    after (regs [(0, 0xFF)] 0xBFFF) (·.pc) = some 0x10FE := by decide

/-- T11, with V[3] set to tell V[0] from V[x]. -/
theorem test_jpV0_index :
    after (regs [(0, 0x10), (3, 0x77)] 0xB300) (·.pc) = some 0x310 := by decide

/-! ## Skips -/

/-- T14. -/
theorem test_seVxKk :
    after (regs [(10, 0x42)] 0x3A42) (·.pc) = some 0x204 := by decide

/-- T15. -/
theorem test_seVxKk_not :
    after (regs [(10, 0x43)] 0x3A42) (·.pc) = some 0x202 := by decide

/-- T17. -/
theorem test_sneVxKk :
    after (regs [(10, 0x43)] 0x4A42) (·.pc) = some 0x204 := by decide

/-- T16. -/
theorem test_sneVxKk_not :
    after (regs [(10, 0x42)] 0x4A42) (·.pc) = some 0x202 := by decide

/-- T18. -/
theorem test_seVxVy :
    after (regs [(1, 0x07), (2, 0x07)] 0x5120) (·.pc) = some 0x204 := by decide

/-- T19. -/
theorem test_seVxVy_not :
    after (regs [(1, 0x07), (2, 0x08)] 0x5120) (·.pc) = some 0x202 := by decide

/-- T21. -/
theorem test_sneVxVy :
    after (regs [(1, 0x07), (2, 0x08)] 0x9120) (·.pc) = some 0x204 := by decide

/-- T23. -/
theorem test_sneVxVy_not :
    after (regs [(3, 0x99)] 0x9330) (·.pc) = some 0x202 := by decide

/-! ## Register loads and the ALU -/

/-- T27. -/
theorem test_ldVxKk :
    after (regs [] 0x6A42) (fun t => (t.readV 10, t.pc)) = some (0x42, 0x202) := by decide

/-- T28. -/
theorem test_ldVxKk_vf :
    after (regs [] 0x6F01) (·.readV 15) = some 0x01 := by decide

/-- T30: wraps, no carry. -/
theorem test_addVxKk :
    after (regs [(3, 0xFF), (15, 0x55)] 0x7302) (fun t => (t.readV 3, t.readV 15, t.pc))
      = some (0x01, 0x55, 0x202) := by decide

/-- T31. -/
theorem test_ldVxVy :
    after (regs [(1, 0x11), (2, 0x22)] 0x8120) (fun t => (t.readV 1, t.readV 2)) = some (0x22, 0x22) := by decide

/-- T32. -/
theorem test_orVxVy :
    after (regs [(1, 0x0C), (2, 0x0A), (15, 0x55)] 0x8121) (fun t => (t.readV 1, t.readV 15))
      = some (0x0E, 0x55) := by decide

/-- T33. -/
theorem test_andVxVy :
    after (regs [(1, 0x0C), (2, 0x0A), (15, 0x55)] 0x8122) (fun t => (t.readV 1, t.readV 15))
      = some (0x08, 0x55) := by decide

/-- T34. -/
theorem test_xorVxVy :
    after (regs [(1, 0x0C), (2, 0x0A), (15, 0x55)] 0x8123) (fun t => (t.readV 1, t.readV 15))
      = some (0x06, 0x55) := by decide

/-- T38. -/
theorem test_addVxVy :
    after (regs [(1, 0xFF), (2, 0x01)] 0x8124) (fun t => (t.readV 1, t.readV 15)) = some (0x00, 0x01) := by decide

/-- T54: the flag wins over the result. -/
theorem test_addVxVy_vf :
    after (regs [(15, 0x10), (1, 0x20)] 0x8F14) (fun t => (t.readV 1, t.readV 15)) = some (0x20, 0x00) := by decide

/-- T42. -/
theorem test_subVxVy :
    after (regs [(1, 0x10), (2, 0x20), (15, 0x01)] 0x8125) (fun t => (t.readV 1, t.readV 15))
      = some (0xF0, 0x00) := by decide

/-- T43. -/
theorem test_subVxVy_equal :
    after (regs [(1, 0x33), (2, 0x33)] 0x8125) (fun t => (t.readV 1, t.readV 15)) = some (0x00, 0x01) := by decide

/-- T45: V[y] is shifted. -/
theorem test_shrVxVy :
    after (regs [(1, 0xFF), (2, 0x05)] 0x8126) (fun t => (t.readV 1, t.readV 15)) = some (0x02, 0x01) := by decide

/-- T60. -/
theorem test_shrVxVy_from_vf :
    after (regs [(15, 0x03)] 0x81F6) (fun t => (t.readV 1, t.readV 15)) = some (0x01, 0x01) := by decide

/-- T48. -/
theorem test_subnVxVy :
    after (regs [(1, 0x05), (2, 0x20), (15, 0x55)] 0x8127) (fun t => (t.readV 1, t.readV 15))
      = some (0x1B, 0x01) := by decide

/-- T49. -/
theorem test_subnVxVy_borrow :
    after (regs [(1, 0x20), (2, 0x10), (15, 0x01)] 0x8127) (fun t => (t.readV 1, t.readV 15))
      = some (0xF0, 0x00) := by decide

/-- T51. -/
theorem test_shlVxVy :
    after (regs [(1, 0x00), (2, 0x81)] 0x812E) (fun t => (t.readV 1, t.readV 15)) = some (0x02, 0x01) := by decide

/-- T61. -/
theorem test_shlVxVy_vf :
    after (regs [(15, 0x40)] 0x8FFE) (·.readV 15) = some 0x00 := by decide

/-! ## Index register and memory -/

/-- T68. -/
theorem test_ldINnn :
    after (regs [] 0xAFFF) (fun t => (t.i, t.pc)) = some (0xFFF, 0x202) := by decide

/-- T71: modulo 65536. -/
theorem test_addIVx :
    after ((base [(1, 0x02)] 0xFFFF 0 []).withFetchWord 16 0xF11E) (·.i) = some 0x001 := by decide

/-- T70: no error, no flag. -/
theorem test_addIVx_past_memory :
    after ((base [(1, 0x01), (15, 0x55)] 0xFFF 0 []).withFetchWord 16 0xF11E) (fun t => (t.i, t.readV 15))
      = some (0x1000, 0x55) := by decide

/-- T73: the high nibble is ignored. -/
theorem test_ldFVx :
    after ((base [(1, 0x1A)] 0x300 0 []).withFetchWord 16 0xF129) (·.i) = some 0x032 := by decide

/-- T76. -/
theorem test_ldBVx :
    after ((base [(1, 0xFE)] 0x300 0 []).withFetchWord 16 0xF133) (fun t => t.bytesFrom 0x300 4)
      = some [0x02, 0x05, 0x04, 0x00] := by decide

/-- T80. -/
theorem test_ldBVx_out :
    errorOfStep ((base [(1, 0xFF)] 0xFFE 0 []).withFetchWord 16 0xF133) = some .outOfBounds := by decide

/-- T81. -/
theorem test_ldMemVx :
    after ((base [(0, 0x11), (1, 0x22), (2, 0x33), (3, 0x44)] 0x300 0 []).withFetchWord 16 0xF255)
      (fun t => (t.bytesFrom 0x300 4, t.i))
      = some ([0x11, 0x22, 0x33, 0x00], 0x300) := by decide

/-- T83. -/
theorem test_ldMemVx_out :
    errorOfStep ((base [(0, 0x77), (1, 0x88)] 0xFFF 0 []).withFetchWord 16 0xF155) = some .outOfBounds := by decide

/-- T85. -/
theorem test_ldVxMem :
    after ((base [(3, 0x99)] 0x300 0x300 [0x0A, 0x0B, 0x0C, 0x0D]).withFetchWord 16 0xF265) (fun t => ([t.readV 0, t.readV 1, t.readV 2, t.readV 3], t.i))
      = some ([0x0A, 0x0B, 0x0C, 0x99], 0x300) := by decide

/-- T86. -/
theorem test_ldVxMem_out :
    errorOfStep ((base [] 0xFFF 0xFFF [0x42]).withFetchWord 16 0xF165) = some .outOfBounds := by decide

/-! ## The framebuffer -/

/-- T93. -/
theorem test_drw_wraps :
    after ((base [(0, 0xFF), (1, 0xFF)] 0x300 0x300 [0xC0]).withFetchWord 16 0xD011) (fun t => (fbGet t.fb 63 31, fbGet t.fb 0 31, fbGet t.fb 1 31, t.readV 15))
      = some (true, true, false, 0) := by decide

/-- T91. -/
theorem test_drw_collides :
    after (({ base [] 0x300 0x300 [0x80] with fb := fbSet fbClear 0 0 true }).withFetchWord 16 0xD011)
      (fun t => (fbGet t.fb 0 0, t.readV 15))
      = some (false, 1) := by decide

/-- T105. -/
theorem test_cls :
    after (({ State.withRegs State.reset [(15, 0x01)] with fb := fbSet (fbSet fbClear 5 5 true) 63 31 true }).withFetchWord 16 0x00E0)
      (fun t => (fbGet t.fb 5 5, fbGet t.fb 63 31, t.readV 15, t.pc))
      = some (false, false, 0x01, 0x202) := by decide

/-! ## Keys, timers, the random byte -/

/-- T106. -/
theorem test_skp :
    after (withInputs (base [(1, 0x07)] 0 0 []) 0xE19E [7] 0) (·.pc) = some 0x204 := by decide

/-- T111. -/
theorem test_skp_out :
    errorOfStep (withInputs (base [(1, 0x10)] 0 0 []) 0xE19E [0, 15] 0) = some .outOfBounds := by decide

/-- T108. -/
theorem test_sknp :
    after (withInputs (base [(1, 0x07)] 0 0 []) 0xE1A1 [7] 0) (·.pc) = some 0x202 := by decide

/-- T109. -/
theorem test_sknp_released :
    after (withInputs (base [(1, 0x07)] 0 0 []) 0xE1A1 [] 0) (·.pc) = some 0x204 := by decide

/-- T116. -/
theorem test_ldVxK :
    after (withInputs (base [(3, 0x55)] 0 0 []) 0xF30A [2, 9, 15] 0) (fun t => (t.readV 3, t.pc, t.report))
      = some (0x02, 0x202, .done) := by decide

/-- T114. -/
theorem test_ldVxK_waits :
    after (withInputs (base [(3, 0x55)] 0 0 []) 0xF30A [] 0) (fun t => (t.readV 3, t.pc, t.report))
      = some (0x55, 0x200, .waiting) := by decide

/-- T118. -/
theorem test_ldVxDt :
    after (({ State.reset with dt := 0x3C }).withFetchWord 16 0xF207) (fun t => (t.readV 2, t.dt))
      = some (0x3C, 0x3C) := by decide

/-- T119. -/
theorem test_ldDtVx :
    after (regs [(2, 0x3C)] 0xF215) (fun t => (t.dt, t.st)) = some (0x3C, 0) := by decide

/-- T120. -/
theorem test_ldStVx :
    after (regs [(2, 0x05)] 0xF218) (fun t => (t.dt, t.st)) = some (0, 0x05) := by decide

/-- T122. -/
theorem test_rndVxKk :
    after (withInputs (base [(3, 0xEE)] 0 0 []) 0xC30F [] 0xA7) (·.readV 3) = some 0x07 := by decide

/-! ## Fetch, reset and the host operations -/

/-- T126. -/
theorem test_fetch_highest :
    after (({ State.reset with pc := 0xFFE }).withFetchWord 16 0x6001) (fun t => (t.readV 0, t.pc))
      = some (0x01, 0x1000) := by decide

/-- T127. -/
theorem test_fetch_out :
    errorOfStep (({ State.reset with pc := 0xFFF }).withFetchWord 16 0x6001) = some .outOfBounds := by decide

/-- T64. -/
theorem test_unknown_word :
    errorOfStep (regs [] 0x8128) = some .unknownInstruction := by decide

/-- H15. -/
theorem test_nothing_loaded :
    errorOfStep ({ State.reset with schedule := [.executeCycle Latch.released 0] })
      = some .unknownInstruction := by decide

/-- H8. -/
theorem test_load_does_not_clear :
    after ({ State.reset.setBytes 0x200 [0xAA, 0xBB, 0xCC] with schedule := [.load [0x11]] }) (fun t => t.bytesFrom 0x200 3)
      = some [0x11, 0xBB, 0xCC] := by decide

/-- H10. -/
theorem test_tick :
    after ({ State.reset with dt := 0xFF, st := 0x02, schedule := [.tickTimers] }) (fun t => (t.dt, t.st))
      = some (0xFE, 0x01) := by decide

/-- H9. -/
theorem test_tick_at_zero :
    after ({ State.reset with dt := 0x01, st := 0x00, schedule := [.tickTimers] }) (fun t => (t.dt, t.st))
      = some (0x00, 0x00) := by decide

/-- H14. -/
theorem test_construction :
    State.reset.bytesFrom 0 6 = [0xF0, 0x90, 0x90, 0x90, 0xF0, 0x20] ∧ State.reset.byteAt 0x4F = 0x80 ∧
    State.reset.byteAt 0x50 = 0 ∧ State.reset.pc = 0x200 := by decide

/-- H1, H2, H5. -/
theorem test_memory_primitives :
    (State.reset.setByte 0xFFF 0x5A).memRead 4095 = .ok 0x5A ∧ State.reset.memRead 4096 = .error .outOfBounds ∧
    State.reset.memRead16 4095 = .error .outOfBounds := by decide

/-- H12, H13. -/
theorem test_framebuffer_primitives :
    fbSet fbClear 64 32 true = fbSet fbClear 0 0 true ∧ fbGet (fbSet fbClear 63 31 true) 127 63 = true := by decide

/-- R207: after an error the state is as the cycle began. -/
theorem test_afterError :
    ((regs [] 0x00EE).afterError .capacityExceeded).report = .error .capacityExceeded ∧
    ((regs [] 0x00EE).afterError .capacityExceeded).pc = 0x200 := by decide

/-! ## Witnesses: what meets the hypotheses of each obligation, at the values where its clauses meet

The obligations without a hypothesis (JumpGoesToItsTarget, OffsetJumpGoesToTheSum, LoadsAndImmediateAdd, LogicIsBitwise,
LoadIndexSetsI, ClearScreenClearsEveryCell, TimerMoves, RandomByteIsMasked, FramebufferAccessorWraps,
SampleWordsDecodeAsTheTableSays, NoStepRaisesInputUnavailable) hold of every state and need none; the tests above run
their instructions. -/

theorem witness_DecodeOfEncode : Instr.wellFormed true .cls = true ∧ Instr.wellFormed false (.drw 15 15 15) = true := by
  decide

theorem witness_EncodeOfDecode : decodeWord false 0xFF65 = .ok (.ldVxMem 15) ∧ decodeWord true 0x00E0 = .ok .cls := by
  decide

/-- The three kinds of word: of a row, of the row of CLS under each value of CLS_ENABLED, of no row. -/
theorem witness_OpcodeMap :
    (∃ row ∈ opcodeRows, matchesRow 0x8126 row = true ∧ row.1 ≠ 1) ∧
    (∃ row ∈ opcodeRows, matchesRow 0x00E0 row = true ∧ row.1 = 1) ∧
    (∀ row ∈ opcodeRows, matchesRow 0x00E0 row = true → row.1 = 1 ∧ false = false) ∧
    (∀ row ∈ opcodeRows, matchesRow 0x8128 row = true → row.1 = 1 ∧ true = false) := by
  decide

theorem witness_ByteAccess :
    State.reset.memRead 4095 = .ok 0 ∧ State.reset.memRead 4096 = .error .outOfBounds ∧
    (State.reset.memWrite 4095 1).toBool = true ∧ (State.reset.memWrite 4096 1).toBool = false := by
  decide

theorem witness_FetchRead :
    (State.reset.memRead16 4094).toBool = true ∧ (State.reset.memRead16 4095).toBool = false := by
  decide

theorem witness_StepRuns : ∃ s₁, (regs [] 0x1ABC).cycleStart = some s₁ ∧ (regs [] 0x1ABC).pc.toNat + 1 < 4096 ∧
    decodeWord (regs [] 0x1ABC).cfg.clsEnabled
      (wordOfBytes ((regs [] 0x1ABC).byteAt (regs [] 0x1ABC).pc.toNat)
        ((regs [] 0x1ABC).byteAt ((regs [] 0x1ABC).pc.toNat + 1))) = .ok (.jp 0xABC) ∧
    (regs [] 0x1ABC).schedule = [.executeCycle Latch.released 0] :=
  ⟨_, rfl, by decide⟩

/-- With nothing listed the cycle's inputs are the free values. -/
theorem witness_StepRuns_free : ∃ s₁, State.reset.cycleStart = some s₁ := ⟨_, rfl⟩

/-- A machine whose next action is a cycle, at the given PC, with the given two bytes there. -/
def at_ (pc : Word) (bytes : List Byte) : State :=
  { State.reset.setBytes pc.toNat bytes with pc := pc, schedule := [.executeCycle Latch.released 0] }

theorem witness_FetchAndDecodeErrors_fetch :
    ∃ s₁, (at_ 4095 []).cycleStart = some s₁ ∧ 4095 ≤ (at_ 4095 []).pc.toNat := ⟨_, rfl, by decide⟩

/-- The word is that of CLS, and CLS_ENABLED is false; PC is the highest that fetches. -/
theorem witness_FetchAndDecodeErrors_decode :
    ∃ s₁, (at_ 4094 [0x00, 0xE0]).cycleStart = some s₁ ∧ (at_ 4094 [0x00, 0xE0]).pc.toNat < 4095 ∧
      ∀ row ∈ opcodeRows,
        matchesRow (wordOfBytes ((at_ 4094 [0x00, 0xE0]).byteAt (at_ 4094 [0x00, 0xE0]).pc.toNat)
          ((at_ 4094 [0x00, 0xE0]).byteAt ((at_ 4094 [0x00, 0xE0]).pc.toNat + 1))) row = true →
        row.1 = 1 ∧ (at_ 4094 [0x00, 0xE0]).cfg.clsEnabled = false :=
  ⟨_, rfl, by decide⟩

/-- Each line of the table of errors, met and not met. -/
theorem witness_EveryInstructionErrs :
    errorOf (.drw 0 1 2) (base [] 0xFFF 0 []) = some .outOfBounds ∧
    errorOf (.drw 0 1 1) (base [] 0xFFF 0 []) = none ∧ errorOf (.drw 0 1 0) (base [] 0xFFFF 0 []) = none ∧
    errorOf (.ldBVx 1) (base [] 0xFFE 0 []) = some .outOfBounds ∧ errorOf (.ldBVx 1) (base [] 0xFFD 0 []) = none ∧
    errorOf (.ldMemVx 1) (base [] 0xFFF 0 []) = some .outOfBounds ∧
    errorOf (.ldVxMem 1) (base [] 0xFFF 0 []) = some .outOfBounds ∧
    errorOf (.ldVxMem 0) (base [] 0xFFF 0 []) = none ∧
    errorOf (.skp 1) (base [(1, 0x10)] 0 0 []) = some .outOfBounds ∧
    errorOf (.sknp 1) (base [(1, 0x0F)] 0 0 []) = none ∧
    errorOf (.call 0x300) { State.reset with sp := 15 } = some .capacityExceeded ∧
    errorOf .ret State.reset = some .capacityExceeded ∧
    errorOf .ret { State.reset with sp := 16 } = some .stackPointerOutsideStack := by
  decide

/-- A RET on an empty stack errs; the second state differs in every input and in the timers. -/
theorem witness_ErrorRepeats :
    (regs [] 0x00EE).cycleStart.isSome = true ∧ step (regs [] 0x00EE) = .fault .capacityExceeded ∧
    ({ regs [] 0x00EE with
        latch := keys [3], rnd := 9, report := .waiting, schedule := [.executeCycle (keys [1]) 7], freeCount := 5,
        dt := 1, st := 2 }).cycleStart.isSome = true :=
  ⟨by decide, rfl, by decide⟩

/-- A cycle that errs. -/
theorem witness_ErrorLeaves :
    step (regs [] 0x00EE) = .fault .capacityExceeded ∧
    (step (regs [] 0x00EE) = .fault .capacityExceeded →
      (stepThroughErrors (regs [] 0x00EE)).report = .error .capacityExceeded) :=
  ⟨rfl, fun _ => rfl⟩

theorem witness_CallPushes :
    State.reset.cfg.spReset = 0 ∧ State.reset.cfg.stackUsableDepth = 15 ∧
    ({ State.reset with sp := 14 } : State).sp.toNat < 15 ∧ 15 ≤ ({ State.reset with sp := 15 } : State).sp.toNat := by
  decide

theorem witness_ReturnPops :
    State.reset.cfg.spReset = 0 ∧ State.reset.sp.toNat = 0 ∧
    1 ≤ ({ State.reset with sp := 1 } : State).sp.toNat ∧ ({ State.reset with sp := 15 } : State).sp.toNat ≤ 15 ∧
    16 ≤ ({ State.reset with sp := 16 } : State).sp.toNat := by
  decide

theorem witness_CallThenReturn : State.reset.cfg.wf = true ∧ ∃ t, exec (.call 0x300) State.reset = .next t :=
  ⟨by decide, _, rfl⟩

/-- The same under the other reading of the stack: SP starts at 0xFF and sixteen calls fit. -/
theorem witness_CallThenReturn_other :
    ({ Config.taken with spReset := 0xFF, stackUsableDepth := 16 } : Config).wf = true ∧
    ∃ t, exec (.call 0x300) (State.construct { Config.taken with spReset := 0xFF, stackUsableDepth := 16 }) = .next t :=
  ⟨by decide, _, rfl⟩

theorem witness_RegisterSkips : (1 : BitVec 4) ≠ 0 ∧ (15 : BitVec 4) ≠ 0 := by decide

theorem witness_FlaggedAlu : (14 : RegIdx) ≠ 15 ∧ ∃ t, exec (.addVxVy 14 15) State.reset = .next t :=
  ⟨by decide, _, rfl⟩

theorem witness_FlagWins : State.reset.cfg.vfWriteOrder = .flagLast := rfl

theorem witness_ResultWins :
    (State.construct { Config.taken with vfWriteOrder := .resultLast }).cfg.vfWriteOrder = .resultLast := rfl

theorem witness_GlyphAddress : State.reset.cfg.wf = true := by decide

theorem witness_DecimalStore :
    (base [] 0xFFD 0 []).i.toNat + 2 < 4096 ∧ 4096 ≤ (base [] 0xFFE 0 []).i.toNat + 2 := by
  decide

/-- For both the register dump and the register load, x = 0 and x = 1 at the last byte, x = 15 at the last address. -/
theorem witness_DumpAndLoad :
    (base [] 0xFFF 0 []).i.toNat + (0 : RegIdx).val < 4096 ∧ 4096 ≤ (base [] 0xFFF 0 []).i.toNat + (1 : RegIdx).val ∧
    (base [] 0xFF0 0 []).i.toNat + (15 : RegIdx).val < 4096 := by
  decide

theorem witness_DumpThenLoad :
    ∃ t, exec (.ldMemVx 2) (base [(0, 1), (1, 2), (2, 3)] 0x300 0 []) = .next t ∧
      ∃ u : State, u.mem = t.mem ∧ u.cfg = t.cfg ∧ u.i = (base [(0, 1), (1, 2), (2, 3)] 0x300 0 []).i ∧
        u.readV 0 ≠ t.readV 0 :=
  ⟨_, rfl, { (State.withRegs (base [] 0x300 0 []) [(0, 9)]) with mem := [(0x300, 1), (0x301, 2), (0x302, 3)] },
    by decide, by decide, rfl, by decide⟩

/-- The dump stores over the next instruction, at PC + 2. -/
theorem witness_StoredBytes :
    1 ≤ (1 : RegIdx).val ∧ ∃ t, exec (.ldMemVx 1) (base [(0, 0x12), (1, 0x34)] 0x202 0 []) = .next t ∧
      t.pc = (base [(0, 0x12), (1, 0x34)] 0x202 0 []).i :=
  ⟨by decide, _, rfl, by decide⟩

theorem witness_Draw_bounds :
    ((0 : Fin 16).val = 0 ∨ (base [] 0xFFFF 0 []).i.toNat + (0 : Fin 16).val - 1 < 4096) ∧
    ((1 : Fin 16).val = 0 ∨ (base [] 0xFFF 0 []).i.toNat + (1 : Fin 16).val - 1 < 4096) ∧
    (0 < (2 : Fin 16).val ∧ 4096 ≤ (base [] 0xFFF 0 []).i.toNat + (2 : Fin 16).val - 1) := by
  decide

/-- A lit cell under a sprite bit of 1, no lit cell, and a cell outside the sprite. -/
theorem witness_Draw_collision :
    (∃ row bit, row < 1 ∧ bit < 8 ∧ ((base [] 0x300 0x300 [0x80]).byteAt (0x300 + row)).getLsbD (7 - bit) = true ∧
      fbGet (fbSet fbClear 0 0 true) bit row = true) ∧
    (¬∃ row bit, row < 1 ∧ bit < 8 ∧ ((base [] 0x300 0x300 [0x80]).byteAt (0x300 + row)).getLsbD (7 - bit) = true ∧
      fbGet fbClear bit row = true) ∧
    (∀ row bit, row < 1 → bit < 8 → ¬((0 + bit) % 64 = 8 % 64 ∧ (0 + row) % 32 = 0 % 32)) := by
  refine ⟨⟨0, 0, by decide⟩, ?_, by omega⟩
  rintro ⟨row, bit, -, -, -, h⟩
  simp [fbGet, fbClear] at h

/-- A one-pixel sprite on a clear framebuffer, drawn twice. -/
theorem witness_DrawingTwice :
    (∃ t, exec (.drw 0 1 1) (base [] 0x300 0x300 [0x80]) = .next t ∧
      ∃ u : State, u.fb = t.fb ∧ u.readV 0 = (base [] 0x300 0x300 [0x80]).readV 0 ∧
        u.readV 1 = (base [] 0x300 0x300 [0x80]).readV 1 ∧ u.i = (base [] 0x300 0x300 [0x80]).i ∧
        (∀ row, row < 1 → u.byteAt (0x300 + row) = (base [] 0x300 0x300 [0x80]).byteAt (0x300 + row))) ∧
    (∃ row bit, row < 1 ∧ bit < 8 ∧ ((base [] 0x300 0x300 [0x80]).byteAt (0x300 + row)).getLsbD (7 - bit) = true) ∧
    (∀ row bit, row < 1 → bit < 8 →
      ((base [] 0x300 0x300 [0x80]).byteAt (0x300 + row)).getLsbD (7 - bit) = true →
      fbGet (base [] 0x300 0x300 [0x80]).fb bit row = false) := by
  refine ⟨⟨_, rfl, _, rfl, rfl, rfl, rfl, by decide⟩, ⟨0, 0, by decide⟩, ?_⟩
  intro row bit _ _ _
  simp [base, State.withRegs, fbGet, State.reset, State.construct, State.setBytes, State.setI, State.setByte]

theorem witness_KeySkips :
    ((base [(1, 0x0F)] 0 0 []).readV 1).toNat = (15 : Key).val ∧ 15 < ((base [(1, 0x10)] 0 0 []).readV 1).toNat := by
  decide

theorem witness_WaitForKey :
    (∃ k : Key, (keys [9]).get k = true) ∧ (∀ k : Key, State.reset.latch[k] = false) ∧
    State.reset.cfg.keySelect = [] := by
  decide

/-- With keys 2 and 9 pressed the lowest one is 2; a machine whose KEY_SELECT lists 9 for this latch stores 9. -/
theorem witness_AnyKeyChoice :
    ({ withInputs (base [] 0 0 []) 0xF30A [2, 9] 0 with
        cfg := { Config.taken with keySelect := [(keys [2, 9], 9)] } }).cycleStart.any (fun s : State => s.latch[(9 : Key)]) = true ∧
    after { withInputs (base [] 0 0 []) 0xF30A [2, 9] 0 with
        cfg := { Config.taken with keySelect := [(keys [2, 9], 9)] } } (·.readV 3) = some 9 := by
  decide

theorem witness_Tick : ({ State.reset with schedule := [.tickTimers, .tickTimers] } : State).schedule
    = .tickTimers :: [.tickTimers] := rfl

theorem witness_ManyTicks : ({ State.reset with dt := 2, schedule := [.tickTimers, .tickTimers, .tickTimers] } : State).schedule
    = List.replicate 3 .tickTimers ++ [] := rfl

theorem witness_Load :
    (∃ s : State, s.schedule = .load (List.replicate 3584 0x46) :: [] ∧ (List.replicate 3584 (0x46 : Byte)).length ≤ 3584) ∧
    (∃ s : State, s.schedule = .load (List.replicate 3585 0x46) :: [] ∧
      3584 < (List.replicate 3585 (0x46 : Byte)).length) :=
  ⟨⟨{ State.reset with schedule := [.load (List.replicate 3584 0x46)] }, rfl, by rw [List.length_replicate]⟩,
    ⟨{ State.reset with schedule := [.load (List.replicate 3585 0x46)] }, rfl, by rw [List.length_replicate]; decide⟩⟩

theorem witness_Construction :
    79 < 80 ∧ (4095 < Config.taken.fontBase ∨ Config.taken.fontBase + 80 ≤ 4095) := by
  decide

theorem witness_FirstCycle :
    Config.taken.wf = true ∧
    { State.construct Config.taken with schedule := [.executeCycle Latch.released 0] }.cycleStart.isSome = true := by
  decide

theorem witness_LoadedProgram :
    Instr.wellFormed Config.taken.clsEnabled (.ldVxKk 0 5) = true ∧ ([0x70, 0x03] : List Byte).length ≤ 3582 := by
  decide

/-- Program P1 of 95_test_vectors.md, its first cycle. -/
theorem witness_LoadedProgram_runs :
    ∃ t, Host.Core.run Sys2Proof.core 2
        { State.reset with schedule := [.load [0x60, 0x05, 0x70, 0x03], .executeCycle Latch.released 0] } = .next t ∧
      t.readV 0 = 5 ∧ t.pc = 0x202 :=
  ⟨_, rfl, by decide⟩

/-- For the frames: an instruction that answers a next state, with a register it does not write, an address it does not
store to, and the special registers it does not write. -/
theorem witness_Frames_store :
    ∃ t, exec (.ldMemVx 2) (base [] 0x300 0 []) = .next t ∧ writesReg (.ldMemVx 2) 0 = false ∧
      storesTo (.ldMemVx 2) (base [] 0x300 0 []) 0x303 = false ∧
      storesTo (.ldMemVx 2) (base [] 0x300 0 []) 0x302 = true ∧
      storesTo (.ldBVx 2) (base [] 0x300 0 []) 0x303 = false ∧ writesI (.ldMemVx 2) = false :=
  ⟨_, rfl, by decide⟩

theorem witness_Frames_load :
    ∃ t, exec (.ldVxMem 2) (base [] 0x300 0 []) = .next t ∧ writesReg (.ldVxMem 2) 3 = false ∧
      writesReg (.ldVxMem 2) 2 = true ∧ writesSp (.ldVxMem 2) = false ∧ writesStack (.ldVxMem 2) = false ∧
      writesDt (.ldVxMem 2) = false ∧ writesSt (.ldVxMem 2) = false ∧ writesFb (.ldVxMem 2) = false :=
  ⟨_, rfl, by decide⟩

theorem witness_FlagIsZeroOrOne :
    (∃ t, exec (.addVxVy 15 1) State.reset = .next t) ∧ State.reset.cfg.vfWriteOrder = .flagLast ∧
    (∃ t, exec (.drw 15 1 0) State.reset = .next t) ∧ (14 : RegIdx) ≠ 15 :=
  ⟨⟨_, rfl⟩, rfl, ⟨_, rfl⟩, by decide⟩

/-- An instruction that is none of the readers, and answers a next state; one that ends in an error. -/
theorem witness_Inputs :
    (∀ x kk, (Instr.ldVxDt 1) ≠ .rndVxKk x kk) ∧
    (∀ x, (Instr.ldVxDt 1) ≠ .skp x ∧ (Instr.ldVxDt 1) ≠ .sknp x ∧ (Instr.ldVxDt 1) ≠ .ldVxK x) ∧
    (∀ x, (Instr.ldVxDt 1) ≠ .ldStVx x) ∧ (∃ t, exec (.ldVxDt 1) State.reset = .next t) ∧
    exec .ret State.reset = .fault .capacityExceeded := by
  refine ⟨by simp, by simp, by simp, ⟨_, rfl⟩, rfl⟩

/-- A state in the middle of a run, one call outstanding, that meets every premise of the four invariants, and whose
step gives a next state. -/
theorem witness_Invariants :
    ∃ s t : State, Inv s ∧ PcBounded s ∧ s.cfg.spReset = 0 ∧ s.sp = 1 ∧ step s = .next t :=
  ⟨{ at_ 0xABC [0x00, 0xEE] with sp := 1, stack := State.reset.stack.set 1 0x202 }, _,
    ⟨by decide, by decide, by decide⟩, ⟨by decide, by decide⟩, rfl, rfl, rfl⟩

theorem witness_Constructed : Config.taken.wf = true ∧
    ({ Config.taken with spReset := 0xFF, stackUsableDepth := 16 } : Config).wf = true := by
  decide

end Sys2Proof.Tests
end

section
/-! PROOFS. Fx0A LD Vx, K and the selected key (45_input_timer_random.md rules R183 and R184). -/

namespace Sys2Proof.Machine

/-- A key index fits a register: the byte Fx0A stores names the key itself. -/
@[simp] theorem toNat_byteOfKey (k : Key) : (byteOfKey k).toNat = k.val := by
  have hk : k.val < 2 ^ 8 := by omega
  rw [byteOfKey, BitVec.toNat_ofNat, Nat.mod_eq_of_lt hk]

/-- Fx0A with a key selected completes in this cycle (R183). -/
theorem exec_ldVxK_of_selectedKey {s : State} {k : Key} (x : RegIdx) (h : s.selectedKey = some k) :
    exec (.ldVxK x) s = .next (s.writeV x (byteOfKey k)).next := by
  simp only [exec, execLdVxK, h]

/-- Settles O55: the table is the graph of the chosen function, so the list for any latch is the chosen key alone. -/
theorem anyKeyChoiceIsAConfiguration : Obligations.AnyKeyChoiceIsAConfiguration := by
  intro choose
  obtain ⟨table, htable⟩ := exists_keySelect choose
  refine ⟨table, fun x s hcfg hpressed => ?_⟩
  have hlisted : (s.cfg.keySelect.filter fun e => e.1 == s.latch).map Prod.snd = [choose s.latch] :=
    hcfg ▸ htable s.latch
  have hselected : s.selectedKey = some (choose s.latch) := s.selectedKey_of_listed hlisted hpressed
  exact ⟨_, exec_ldVxK_of_selectedKey x hselected, by simp, rfl⟩

end Sys2Proof.Machine
end

section
/-! PROOFS. What every instruction leaves alone (10_state.md rules R20, R22, R25): the frame of an instruction, the
registers it writes, the flag it leaves, and where PC goes. An instruction that never ends in an error is read off its
meaning; the nine others go through the lemmas of Laws/Exec. -/

namespace Sys2Proof.Machine

variable {i : Instr} {s t : State}

/-- Two answers that are the same result are the same state. -/
theorem eq_of_next_eq_next {a b : State} (h : (.next a : Result) = .next b) : b = a :=
  (Host.Outcome.next.inj h).symm

/-- Fx33 and Fx55 store to memory (R65). -/
def storesToMemory : Instr → Bool
  | .ldBVx _ | .ldMemVx _ => true
  | _ => false

/-- t differs from s at most in the fields that R20 lets the instruction write, in V, in PC and in the report. -/
structure Framed (i : Instr) (s t : State) : Prop where
  index : writesI i = false → t.i = s.i
  sp : writesSp i = false → t.sp = s.sp
  stack : writesStack i = false → t.stack = s.stack
  dt : writesDt i = false → t.dt = s.dt
  st : writesSt i = false → t.st = s.st
  fb : writesFb i = false → t.fb = s.fb
  mem : storesToMemory i = false → t.mem = s.mem
  latch : t.latch = s.latch
  rnd : t.rnd = s.rnd
  schedule : t.schedule = s.schedule
  freeCount : t.freeCount = s.freeCount
  cfg : t.cfg = s.cfg

/-- Every instruction keeps its frame (R20). -/
theorem exec_framed (h : exec i s = .next t) : Framed i s t := by
  cases i with
  | ret =>
    obtain ⟨a, -, -, rfl⟩ := exec_ret_next h
    constructor <;> simp [writesSp]
  | call nnn =>
    obtain ⟨-, rfl⟩ := exec_call_next h
    constructor <;> simp [writesSp, writesStack]
  | drw x y n =>
    obtain ⟨-, rfl⟩ := exec_drw_next h
    constructor <;> simp [writesFb]
  | ldBVx x =>
    obtain ⟨-, rfl⟩ := exec_ldBVx_next h
    constructor <;> simp [storesToMemory]
  | ldMemVx x =>
    obtain ⟨-, rfl⟩ := exec_ldMemVx_next h
    constructor <;> simp [storesToMemory]
  | ldVxMem x =>
    obtain ⟨-, rfl⟩ := exec_ldVxMem_next h
    constructor <;> simp
  | skp x =>
    obtain ⟨_, rfl⟩ := exec_skp_next h
    constructor <;> simp
  | sknp x =>
    obtain ⟨_, rfl⟩ := exec_sknp_next h
    constructor <;> simp
  | ldVxK x =>
    obtain ⟨k, -, -, rfl⟩ | ⟨-, rfl⟩ := exec_ldVxK_next h <;> constructor <;> simp
  | _ =>
    obtain rfl := eq_of_next_eq_next h
    constructor <;> simp [writesI, writesDt, writesSt, writesFb]

/-- Settles O48: the fields of the frame. -/
theorem specialStateChangesOnlyAsListed : Obligations.SpecialStateChangesOnlyAsListed := by
  intro i s t h
  have f := exec_framed h
  exact ⟨f.index, f.sp, f.stack, f.dt, f.st, f.fb, f.latch, f.rnd, f.schedule, f.freeCount, f.cfg⟩

/-- Settles O46: a register that is not written reads as before, group by group of the destinations. -/
theorem registersChangeOnlyAsDestinations : Obligations.RegistersChangeOnlyAsDestinations := by
  intro i s t r h hr
  cases i with
  | ldVxKk x | addVxKk x | rndVxKk x | ldVxDt x | ldVxVy x | orVxVy x | andVxVy x | xorVxVy x =>
    obtain rfl := eq_of_next_eq_next h
    have hx : r ≠ x := by simpa [writesReg] using hr
    simp [State.readV_writeV, hx]
  | addVxVy x | subVxVy x | shrVxVy x | subnVxVy x | shlVxVy x =>
    obtain rfl := eq_of_next_eq_next h
    obtain ⟨hx, hf⟩ : r ≠ x ∧ r ≠ flagReg := by simpa [writesReg, flagReg] using hr
    exact s.readV_writeResultAndFlag_other x r _ _ hx hf
  | ldVxK x =>
    obtain ⟨k, -, -, rfl⟩ | ⟨-, rfl⟩ := exec_ldVxK_next h
    · have hx : r ≠ x := by simpa [writesReg] using hr
      simp [State.readV_writeV, hx]
    · rfl
  | drw x y n =>
    obtain ⟨-, rfl⟩ := exec_drw_next h
    have hf : r ≠ flagReg := by simpa [writesReg, flagReg] using hr
    simp [State.readV_writeV, hf]
  | ldVxMem x =>
    obtain ⟨-, rfl⟩ := exec_ldVxMem_next h
    have hx : x.val < r.val := by simpa [writesReg] using hr
    have hbeyond : (s.bytesFrom s.i.toNat (x.val + 1))[r.val]? = none := by
      rw [s.getElem?_bytesFrom, if_neg (by omega)]
    simp [hbeyond]
  | ret =>
    obtain ⟨a, -, -, rfl⟩ := exec_ret_next h
    rfl
  | call nnn =>
    obtain ⟨-, rfl⟩ := exec_call_next h
    rfl
  | ldBVx x =>
    obtain ⟨-, rfl⟩ := exec_ldBVx_next h
    simp
  | ldMemVx x =>
    obtain ⟨-, rfl⟩ := exec_ldMemVx_next h
    simp
  | skp x =>
    obtain ⟨_, rfl⟩ := exec_skp_next h
    simp
  | sknp x =>
    obtain ⟨_, rfl⟩ := exec_sknp_next h
    simp
  | _ =>
    obtain rfl := eq_of_next_eq_next h
    simp

/-! ## The flag -/

theorem flagByte_eq_zero_or_one (b : Bool) : flagByte b = 0 ∨ flagByte b = 1 := by
  cases b
  · exact .inl rfl
  · exact .inr rfl

/-- VF is the flag when the flag is written last or the destination is another register (R141). -/
theorem State.readV_flag_writeResultAndFlag (s : State) {x : RegIdx} (b : Byte) (f : Bool)
    (h : s.cfg.vfWriteOrder = .flagLast ∨ x ≠ flagReg) :
    (s.writeResultAndFlag x b f).readV flagReg = flagByte f := by
  rcases h with hlast | hx
  · exact s.readV_flag_of_flagLast hlast x b f
  · rw [s.readV_writeResultAndFlag_of_ne hx, if_neg hx.symm, if_pos rfl]

/-- The five flag writers of family 8 write a result and a flag, and complete (R141). -/
theorem exec_aluFlag_next {x y : RegIdx}
    (hi : i = .addVxVy x y ∨ i = .subVxVy x y ∨ i = .shrVxVy x y ∨ i = .subnVxVy x y ∨ i = .shlVxVy x y)
    (h : exec i s = .next t) : ∃ b f, t = (s.writeResultAndFlag x b f).next := by
  rcases hi with rfl | rfl | rfl | rfl | rfl <;> exact ⟨_, _, eq_of_next_eq_next h⟩

/-- Settles O49: VF is read back as the flag byte that was written. -/
theorem flagIsZeroOrOne : Obligations.FlagIsZeroOrOne := by
  intro x y n i s t hi h horder
  suffices ∃ f, t.readV flagReg = flagByte f by
    obtain ⟨f, hf⟩ := this
    exact hf ▸ flagByte_eq_zero_or_one f
  by_cases hdrw : i = .drw x y n
  · subst hdrw
    obtain ⟨-, rfl⟩ := exec_drw_next h
    exact ⟨_, State.readV_writeV_self _ _ _⟩
  · obtain ⟨b, f, rfl⟩ := exec_aluFlag_next (by simpa [hdrw] using hi) h
    exact ⟨f, s.readV_flag_writeResultAndFlag b f (horder.resolve_left hdrw)⟩

/-! ## The program counter -/

/-- Settles O45: row by row of the table of R25; an instruction without a row of its own advances by 2. -/
theorem programCounterMovesAsTabled : Obligations.ProgramCounterMovesAsTabled := by
  intro i s t h
  cases i with
  | ret =>
    obtain ⟨a, -, htop, rfl⟩ := exec_ret_next h
    rw [State.stackTop] at htop
    simp [pcAfter, htop]
  | call nnn =>
    obtain ⟨-, rfl⟩ := exec_call_next h
    rfl
  | skp x =>
    obtain ⟨hb, rfl⟩ := exec_skp_next h
    simp [pcAfter, State.keyPressed, hb]
  | sknp x =>
    obtain ⟨hb, rfl⟩ := exec_sknp_next h
    cases hk : s.latch[(s.readV x).toNat] <;> simp [pcAfter, State.keyPressed, hb, hk]
  | ldVxK x =>
    obtain ⟨k, -, hk, rfl⟩ | ⟨hnone, rfl⟩ := exec_ldVxK_next h
    · exact (if_pos ⟨k, hk⟩).symm
    · simp [pcAfter, hnone]
  | seVxKk | sneVxKk | seVxVy | sneVxVy =>
    obtain rfl := eq_of_next_eq_next h
    simp [pcAfter]
  | drw x y n =>
    obtain ⟨-, rfl⟩ := exec_drw_next h
    rfl
  | ldBVx x =>
    obtain ⟨-, rfl⟩ := exec_ldBVx_next h
    simp [pcAfter]
  | ldMemVx x =>
    obtain ⟨-, rfl⟩ := exec_ldMemVx_next h
    simp [pcAfter]
  | ldVxMem x =>
    obtain ⟨-, rfl⟩ := exec_ldVxMem_next h
    rfl
  | addVxVy | subVxVy | shrVxVy | subnVxVy | shlVxVy =>
    obtain rfl := eq_of_next_eq_next h
    simp [pcAfter]
  | _ =>
    obtain rfl := eq_of_next_eq_next h
    rfl

end Sys2Proof.Machine
end

section
/-! PROOFS. Inputs and the sound timer reach only the instructions that read or write them (10_state.md rules R31, R38,
R39). One update replaces any of the three values; it commutes with every operation an instruction is written over, so
an instruction that reads none of the replaced values, and overwrites none, commutes with it too. -/

namespace Sys2Proof.Machine

/-- The state under another latch, random byte or sound timer, each one kept where none is given. -/
def State.withInputs (s : State) (l : Option Latch) (r b : Option Byte) : State :=
  { s with latch := l.getD s.latch, rnd := r.getD s.rnd, st := b.getD s.st }

/-- An answer, its next state changed. -/
def mapNext (f : State → State) : Result → Result
  | .next t => .next (f t)
  | .fault e => .fault e
  | .refused q => .refused q

variable {l : Option Latch} {r b : Option Byte}

/-! ## The operations -/

section
variable (s : State)

@[simp] theorem State.withInputs_i : (s.withInputs l r b).i = s.i := rfl
@[simp] theorem State.withInputs_cfg : (s.withInputs l r b).cfg = s.cfg := rfl
@[simp] theorem State.readV_withInputs (x : RegIdx) : (s.withInputs l r b).readV x = s.readV x := rfl
@[simp] theorem State.regsThrough_withInputs (x : RegIdx) : (s.withInputs l r b).regsThrough x = s.regsThrough x := rfl
@[simp] theorem State.stackFull_withInputs : (s.withInputs l r b).stackFull = s.stackFull := rfl
@[simp] theorem State.stackEmpty_withInputs : (s.withInputs l r b).stackEmpty = s.stackEmpty := rfl
@[simp] theorem State.stackTop_withInputs : (s.withInputs l r b).stackTop = s.stackTop := rfl
@[simp] theorem State.keyPressed_withInputs (k : Key) :
    (s.withInputs none r b).keyPressed k = s.keyPressed k := rfl
@[simp] theorem State.selectedKey_withInputs : (s.withInputs none r b).selectedKey = s.selectedKey := rfl

end

theorem State.bytesFrom_withInputs (s : State) (a n : Nat) :
    (s.withInputs l r b).bytesFrom a n = s.bytesFrom a n := by
  induction n generalizing a with
  | zero => rfl
  | succ n ih => exact congrArg (s.byteAt a :: ·) (ih (a + 1))

theorem State.setBytes_withInputs (bytes : List Byte) (s : State) (a : Nat) :
    (s.withInputs l r b).setBytes a bytes = (s.setBytes a bytes).withInputs l r b := by
  induction bytes generalizing s a with
  | nil => rfl
  | cons w bytes ih => exact ih (s.setByte a w) (a + 1)

theorem State.loadRange_withInputs (s : State) (a n : Nat) :
    (s.withInputs l r b).loadRange a n = s.loadRange a n := by
  rw [State.loadRange, State.loadRange, State.bytesFrom_withInputs]

theorem State.storeRange_withInputs (s : State) (a : Nat) (bytes : List Byte) :
    (s.withInputs l r b).storeRange a bytes = (s.storeRange a bytes).map (·.withInputs l r b) := by
  rw [State.storeRange, State.storeRange, State.setBytes_withInputs]
  split <;> rfl

theorem State.skipIf_withInputs (s : State) (c : Bool) :
    (s.withInputs l r b).skipIf c = (s.skipIf c).withInputs l r b := by
  cases c <;> rfl

theorem State.writeResultAndFlag_withInputs (s : State) (x : RegIdx) (v : Byte) (f : Bool) :
    (s.withInputs l r b).writeResultAndFlag x v f = (s.writeResultAndFlag x v f).withInputs l r b := by
  simp only [State.writeResultAndFlag, State.withInputs_cfg]
  cases s.cfg.vfWriteOrder <;> rfl

/-! ## The instructions -/

/-- An instruction that reads no replaced value, and overwrites none, commutes with the replacement. -/
theorem exec_withInputs (i : Instr) (s : State) (hrnd : r = none ∨ ∀ x kk, i ≠ .rndVxKk x kk)
    (hlatch : l = none ∨ ∀ x, i ≠ .skp x ∧ i ≠ .sknp x ∧ i ≠ .ldVxK x) (hst : b = none ∨ ∀ x, i ≠ .ldStVx x) :
    exec i (s.withInputs l r b) = mapNext (·.withInputs l r b) (exec i s) := by
  cases i with
  | rndVxKk x kk =>
    obtain rfl := hrnd.resolve_right fun h => h x kk rfl
    rfl
  | ldStVx x =>
    obtain rfl := hst.resolve_right fun h => h x rfl
    rfl
  | skp x =>
    obtain rfl := hlatch.resolve_right fun h => (h x).1 rfl
    simp only [exec, execSkp, State.readV_withInputs, State.keyPressed_withInputs, State.skipIf_withInputs]
    cases keyOfByte (s.readV x) <;> rfl
  | sknp x =>
    obtain rfl := hlatch.resolve_right fun h => (h x).2.1 rfl
    simp only [exec, execSknp, State.readV_withInputs, State.keyPressed_withInputs, State.skipIf_withInputs]
    cases keyOfByte (s.readV x) <;> rfl
  | ldVxK x =>
    obtain rfl := hlatch.resolve_right fun h => (h x).2.2 rfl
    simp only [exec, execLdVxK, State.selectedKey_withInputs]
    cases s.selectedKey <;> rfl
  | ret =>
    cases hempty : s.stackEmpty
    · cases htop : s.stackTop <;> simp only [exec, execRet, State.stackEmpty_withInputs, State.stackTop_withInputs,
        hempty, htop, Bool.false_eq_true, if_false] <;> rfl
    · simp only [exec, execRet, State.stackEmpty_withInputs, hempty, if_true]
      rfl
  | call nnn =>
    cases hfull : s.stackFull <;>
      simp only [exec, execCall, State.stackFull_withInputs, hfull, Bool.false_eq_true, if_true, if_false] <;> rfl
  | drw x y n =>
    simp only [exec, execDrw, State.withInputs_i, State.loadRange_withInputs]
    cases s.loadRange s.i.toNat n.val <;> rfl
  | ldVxMem x =>
    simp only [exec, execLdVxMem, State.withInputs_i, State.loadRange_withInputs]
    cases s.loadRange s.i.toNat (x.val + 1) <;> rfl
  | ldBVx x =>
    simp only [exec, execLdBVx, State.withInputs_i, State.readV_withInputs, State.storeRange_withInputs]
    cases s.storeRange s.i.toNat (decimalDigits (s.readV x)) <;> rfl
  | ldMemVx x =>
    simp only [exec, execLdMemVx, State.withInputs_i, State.regsThrough_withInputs, State.storeRange_withInputs]
    cases s.storeRange s.i.toNat (s.regsThrough x) <;> rfl
  | seVxKk | sneVxKk | seVxVy | sneVxVy => exact congrArg Host.Outcome.next (s.skipIf_withInputs _)
  | addVxVy x | subVxVy x | shrVxVy x | subnVxVy x | shlVxVy x =>
    exact congrArg (fun t : State => Host.Outcome.next t.next) (s.writeResultAndFlag_withInputs x _ _)
  | _ => rfl

/-- Commuting with the replacement, outcome by outcome: the same next state but for the replaced values, the same
error. -/
theorem exec_outcomes_of_withInputs {i : Instr} {s : State}
    (h : exec i (s.withInputs l r b) = mapNext (·.withInputs l r b) (exec i s)) :
    (∀ t, exec i s = .next t → exec i (s.withInputs l r b) = .next (t.withInputs l r b)) ∧
    (∀ e, exec i s = .fault e → exec i (s.withInputs l r b) = .fault e) :=
  ⟨fun t ht => by rw [h, ht]; rfl, fun e he => by rw [h, he]; rfl⟩

/-- Settles O50: one value replaced at a time. -/
theorem inputsReachOnlyTheirReaders : Obligations.InputsReachOnlyTheirReaders := by
  intro i s
  refine ⟨fun r hr => ?_, fun l hl => ?_, fun b hb => ?_⟩
  · exact exec_outcomes_of_withInputs (l := none) (r := some r) (b := none)
      (exec_withInputs i s (.inr hr) (.inl rfl) (.inl rfl))
  · exact exec_outcomes_of_withInputs (l := some l) (r := none) (b := none)
      (exec_withInputs i s (.inl rfl) (.inr hl) (.inl rfl))
  · exact exec_outcomes_of_withInputs (l := none) (r := none) (b := some b)
      (exec_withInputs i s (.inl rfl) (.inl rfl) (.inr hb))

end Sys2Proof.Machine
end

section
/-! PROOFS. What every step keeps (10_state.md rules R26 and R29), and that construction begins there (rule R41). An
invariant is shown of an instruction first, from the instruction's frame and its row of the table of PC updates; a step
adds the presented inputs, the tick and the load. -/

namespace Sys2Proof.Machine

variable {i : Instr} {s s₁ t : State}

/-! ## What the invariants read -/

/-- The fields the invariants speak of are the same in both states. -/
structure SameCore (s t : State) : Prop where
  pc : t.pc = s.pc
  sp : t.sp = s.sp
  stack : t.stack = s.stack
  mem : t.mem = s.mem
  cfg : t.cfg = s.cfg

/-- Presenting the inputs of a cycle touches none of them (R37). -/
theorem State.sameCore_of_cycleStart (h : s.cycleStart = some s₁) : SameCore s s₁ := by
  have e := State.cycleStart_eq h
  constructor <;> rw [e]

theorem SameCore.callDepth (c : SameCore s t) : t.callDepth = s.callDepth := by
  rw [State.callDepth, State.callDepth, c.sp, c.cfg]

theorem SameCore.inv (c : SameCore s t) (h : Inv s) : Inv t := by
  rw [Inv, c.mem, c.cfg, c.callDepth]
  exact h

theorem SameCore.pcBounded (c : SameCore s t) (h : PcBounded s) : PcBounded t := by
  rw [PcBounded, c.pc, c.stack]
  exact h

/-! ## Memory and the calls outstanding (R29, R50) -/

/-- An instruction that answers a next state keeps memory canonical (R54, R65). -/
theorem exec_keeps_mem_wf (h : exec i s = .next t) (hm : Memory.wf s.cfg s.mem = true) :
    Memory.wf t.cfg t.mem = true := by
  have f := exec_framed h
  rw [f.cfg]
  cases i with
  | ldBVx x =>
    obtain ⟨hr, rfl⟩ := exec_ldBVx_next h
    exact s.wf_setBytes (decimalDigits (s.readV x)) s.i.toNat hm hr
  | ldMemVx x =>
    obtain ⟨hr, rfl⟩ := exec_ldMemVx_next h
    exact s.wf_setBytes (s.regsThrough x) s.i.toNat hm (by simpa using hr)
  | _ => exact (f.mem rfl).symm ▸ hm

/-- The limits on the stack's parameters: the entries a call stores to stay inside the sixteen, or the empty value is
0xFF and wraps to 0 (decision D3, C2). -/
theorem Config.stackLimits_of_wf {c : Config} (h : c.wf = true) :
    c.spReset.toNat + c.stackUsableDepth < 16 ∨ c.spReset = 0xFF ∧ c.stackUsableDepth ≤ 16 := by
  simp only [Config.wf, Bool.and_eq_true, Bool.or_eq_true, decide_eq_true_eq, beq_iff_eq] at h
  exact h.2

/-- A call on a stack that is not full leaves no more calls outstanding than fit (R101). -/
theorem State.callDepth_push_le (a : Word) (hc : s.cfg.wf = true) (hfull : s.stackFull = false) :
    (s.push a).callDepth ≤ s.cfg.stackUsableDepth := by
  have hlimit : s.cfg.stackUsableDepth ≤ 16 := by
    rcases Config.stackLimits_of_wf hc with h | ⟨-, h⟩ <;> omega
  have hroom : s.callDepth < s.cfg.stackUsableDepth := by
    simp only [State.stackFull, Bool.or_eq_false_iff, decide_eq_false_iff_not, not_le] at hfull
    exact hfull.1
  have hone : (s.push a).callDepth = (s.sp - s.cfg.spReset + 1).toNat := by
    rw [State.callDepth, State.push_sp, State.push_cfg, add_sub_right_comm]
  rw [State.callDepth] at hroom
  rw [hone]
  bv_omega

/-- A return from a stack that is not empty leaves fewer calls outstanding (R102). -/
theorem State.callDepth_pop_lt (hempty : s.stackEmpty = false) : s.pop.callDepth < s.callDepth := by
  simp only [State.stackEmpty, beq_eq_false_iff_ne] at hempty
  simp only [State.callDepth, State.pop_sp, State.pop_cfg]
  bv_omega

/-- An instruction that answers a next state keeps the calls outstanding within the usable depth (R29). -/
theorem exec_keeps_callDepth (h : exec i s = .next t) (hc : s.cfg.wf = true)
    (hd : s.callDepth ≤ s.cfg.stackUsableDepth) : t.callDepth ≤ t.cfg.stackUsableDepth := by
  have f := exec_framed h
  rw [f.cfg]
  cases i with
  | call nnn =>
    obtain ⟨hfull, rfl⟩ := exec_call_next h
    exact State.callDepth_push_le (s.pc + 2) hc hfull
  | ret =>
    obtain ⟨a, hempty, -, rfl⟩ := exec_ret_next h
    exact (State.callDepth_pop_lt hempty).le.trans hd
  | _ =>
    rw [State.callDepth, f.sp rfl, f.cfg]
    exact hd

theorem exec_keeps_inv (h : exec i s = .next t) (hs : Inv s) : Inv t := by
  obtain ⟨hm, hc, hd⟩ := hs
  exact ⟨exec_keeps_mem_wf h hm, (exec_framed h).cfg.symm ▸ hc, exec_keeps_callDepth h hc hd⟩

/-- Settles O51: a cycle by exec_keeps_inv; a tick changes no field of the invariant; a load writes inside memory. -/
theorem stepKeepsTheInvariant : Obligations.StepKeepsTheInvariant := by
  intro s t hs h
  rcases step_next_cases h with ⟨s₁, i, hstart, -, hexec⟩ | ⟨rest, -, rfl⟩ | ⟨bytes, rest, -, hlen, rfl⟩
  · exact exec_keeps_inv hexec ((State.sameCore_of_cycleStart hstart).inv hs)
  · exact hs
  · obtain ⟨hm, hc, hd⟩ := hs
    have hfits : programBase + bytes.length ≤ memSize := Nat.add_le_of_le_sub' (by decide) hlen
    refine ⟨?_, ?_, ?_⟩
    · simpa using (s.takeAction rest).wf_setBytes bytes programBase hm hfits
    · simpa using hc
    · simpa [State.callDepth] using hd

/-! ## PC and the return addresses (R26) -/

/-- The bounds hold of every row of the table of PC updates: a skip goes to 4098 at most, a jump to 4095, Bnnn to the
full sum 4095 + 255 (decision D9), a return to an address on the stack. -/
theorem pcAfter_le (i : Instr) (hs : PcBounded s) (hfetched : s.pc.toNat + 2 ≤ 4096) :
    (pcAfter i s).toNat ≤ 4350 := by
  obtain ⟨hpc, hstack⟩ := hs
  have hnext : (s.pc + 2).toNat ≤ 4350 := by bv_omega
  have hskip : (s.pc + 4).toNat ≤ 4350 := by bv_omega
  cases i with
  | jp nnn | call nnn | jpV0 nnn =>
    simp only [pcAfter]
    bv_omega
  | ret =>
    by_cases hsp : s.sp.toNat < 16
    · have hentry : s.stack[s.sp.toNat].toNat ≤ 4096 := hstack ⟨s.sp.toNat, hsp⟩
      have hpcAfter : pcAfter .ret s = s.stack[s.sp.toNat] := by simp [pcAfter, hsp]
      rw [hpcAfter]
      omega
    · simp [pcAfter, hsp]
  | seVxKk | sneVxKk | seVxVy | sneVxVy | skp | sknp | ldVxK =>
    simp only [pcAfter]
    split_ifs <;> assumption
  | _ => exact hnext

/-- An instruction that was fetched stores no return address above 4096 (R101, decision D4). -/
theorem exec_keeps_stack_le (h : exec i s = .next t) (hs : ∀ k : Fin 16, s.stack[k].toNat ≤ 4096)
    (hfetched : s.pc.toNat + 2 ≤ 4096) (k : Fin 16) : t.stack[k].toNat ≤ 4096 := by
  have f := exec_framed h
  cases i with
  | call nnn =>
    obtain ⟨-, rfl⟩ := exec_call_next h
    have hreturn : (s.pc + 2).toNat ≤ 4096 := by bv_omega
    simp only [State.finish_stack, State.push_stack, Fin.getElem_fin, Vector.getElem_setIfInBounds]
    split_ifs
    · exact hreturn
    · exact hs k
  | _ =>
    rw [f.stack rfl]
    exact hs k

/-- Settles O52: a cycle runs a fetched instruction, so PC was at most 4094; no other action moves PC or the stack. -/
theorem stepKeepsProgramCounterBounded : Obligations.StepKeepsProgramCounterBounded := by
  intro s t hs h
  rcases step_next_cases h with ⟨s₁, i, hstart, hfetch, hexec⟩ | ⟨rest, -, rfl⟩ | ⟨bytes, rest, -, -, rfl⟩
  · have hs₁ := (State.sameCore_of_cycleStart hstart).pcBounded hs
    obtain ⟨hfetched, -⟩ := State.fetchInstr_ok hfetch
    refine ⟨?_, exec_keeps_stack_le hexec hs₁.2 hfetched⟩
    rw [programCounterMovesAsTabled i s₁ t hexec]
    exact pcAfter_le i hs₁ hfetched
  · exact hs
  · simpa [PcBounded] using hs

/-! ## The first entry of the stack (R29) -/

/-- With the empty value 0 the invariant keeps SP inside the stack (decision D3). -/
theorem Inv.sp_le (h : Inv s) (hempty : s.cfg.spReset = 0) : s.sp.toNat ≤ 15 := by
  obtain ⟨-, hc, hd⟩ := h
  have hsp : s.callDepth = s.sp.toNat := by simp [State.callDepth, hempty]
  rcases Config.stackLimits_of_wf hc with hroom | ⟨hwraps, -⟩
  · omega
  · exact absurd (hempty.symm.trans hwraps) (by decide)

/-- A step keeps the parameters (R7). -/
theorem step_cfg (h : step s = .next t) : t.cfg = s.cfg := by
  rcases step_next_cases h with ⟨s₁, i, hstart, -, hexec⟩ | ⟨rest, -, rfl⟩ | ⟨bytes, rest, -, -, rfl⟩
  · exact (exec_framed hexec).cfg.trans (State.sameCore_of_cycleStart hstart).cfg
  · rfl
  · simp

/-- No instruction writes stack[0] while SP is inside the stack: a call stores at SP + 1 (R101). -/
theorem exec_stack_zero (h : exec i s = .next t) (hsp : s.sp.toNat ≤ 15) : t.stack[0] = s.stack[0] := by
  have f := exec_framed h
  cases i with
  | call nnn =>
    obtain ⟨-, rfl⟩ := exec_call_next h
    have habove : (s.sp + 1).toNat ≠ 0 := by bv_omega
    exact Vector.getElem_setIfInBounds_ne (by decide) habove
  | _ => rw [f.stack rfl]

/-- Settles O53: SP stays inside by the invariant, which the step keeps; only a cycle could write the stack. -/
theorem stepLeavesStackEntryZeroAlone : Obligations.StepLeavesStackEntryZeroAlone := by
  intro s t hs hempty h
  refine ⟨?_, (stepKeepsTheInvariant s t hs h).sp_le (by rw [step_cfg h, hempty])⟩
  rcases step_next_cases h with ⟨s₁, i, hstart, -, hexec⟩ | ⟨rest, -, rfl⟩ | ⟨bytes, rest, -, -, rfl⟩
  · have c := State.sameCore_of_cycleStart hstart
    rw [exec_stack_zero hexec (c.sp ▸ hs.sp_le hempty), c.stack]
  · rfl
  · simp

/-! ## Construction (R41) -/

/-- A byte of the glyph table after construction (R153). -/
theorem constructedByte_glyph (c : Config) {k : Nat} (h : k < 80) :
    constructedByte c (c.fontBase + k) = c.fontTable[k] := by
  simp [constructedByte, h]

/-- Every byte outside the glyph table is 0 after construction (R41). -/
theorem constructedByte_outside (c : Config) {a : Nat} (h : a < c.fontBase ∨ c.fontBase + 80 ≤ a) :
    constructedByte c a = 0 := by
  rw [constructedByte, dif_neg (by omega)]

/-- Settles O42: the fields as State.construct writes them; memory reads as the glyph table and zeros. -/
theorem constructionLeavesTheResetState : Obligations.ConstructionLeavesTheResetState := by
  refine ⟨fun c => ⟨rfl, fun r => ?_, rfl, rfl, fun k => ?_, rfl, rfl, fun cx cy => ?_, fun k hk => ?_, fun a ha => ?_,
    rfl⟩, rfl⟩
  · simp [State.construct, State.readV]
  · simp [State.construct]
  · simp [State.construct, fbGet]
  · exact constructedByte_glyph c hk
  · exact constructedByte_outside c ha

theorem inv_construct {c : Config} (h : c.wf = true) : Inv (State.construct c) := by
  refine ⟨Memory.wf_construct c, h, ?_⟩
  simp [State.callDepth, State.construct]

theorem pcBounded_construct (c : Config) : PcBounded (State.construct c) :=
  ⟨by simp [State.construct], fun k => by simp [State.construct]⟩

/-- Settles O54: the reset state is the constructed machine with the parameters of R7, which are inside the limits. -/
theorem constructedMachineMeetsTheInvariants : Obligations.ConstructedMachineMeetsTheInvariants :=
  ⟨fun c h => ⟨inv_construct h, pcBounded_construct c⟩, inv_construct (by decide), pcBounded_construct _⟩

end Sys2Proof.Machine
end

section
/-! PROOFS. The memory controller and the framebuffer accessor (20_memory.md): one byte, the fetch read, the ranged
write and what it leaves alone, the load, the cells. -/

namespace Sys2Proof.Machine

variable {s t : State}

/-! ## One byte and the fetch read (R51 to R53) -/

/-- Everything the byte read can do (R51). -/
theorem State.memRead_eq (s : State) (a : Nat) :
    s.memRead a = if a + 1 ≤ memSize then .ok (s.byteAt a) else .error .outOfBounds := by
  rw [State.memRead, State.loadRange_eq]
  by_cases h : a + 1 ≤ memSize <;> simp [h, State.bytesFrom]

/-- Everything the byte write can do (R52). -/
theorem State.memWrite_eq (s : State) (a : Nat) (b : Byte) :
    s.memWrite a b = if a + 1 ≤ memSize then .ok (s.setByte a b) else .error .outOfBounds := by
  rw [State.memWrite, State.storeRange_eq]
  simp [State.setBytes]

/-- Settles O5: both accesses make the one bounds check, and a write is a setByte. -/
theorem byteAccessIsBoundsChecked : Obligations.ByteAccessIsBoundsChecked := by
  intro s a b
  rw [State.memRead_eq, State.memWrite_eq]
  refine ⟨fun houtside => ?_, fun hinside => ?_⟩
  · have hfails : ¬ a + 1 ≤ memSize := Nat.not_le_of_lt (Nat.lt_succ_of_le houtside)
    exact ⟨if_neg hfails, if_neg hfails⟩
  · have hexists : a + 1 ≤ memSize := hinside
    refine ⟨if_pos hexists, s.setByte a b, if_pos hexists, ?_, fun a' ha' => ?_, rfl⟩
    · rw [State.byteAt_setByte, if_pos rfl]
    · rw [State.byteAt_setByte, if_neg ha']

/-- Big-endian: the high byte counts 256-fold (R53, R63). -/
theorem toNat_wordOfBytes (high low : Byte) : (wordOfBytes high low).toNat = high.toNat * 256 + low.toNat := by
  rw [wordOfBytes, BitVec.toNat_append, ← Nat.shiftLeft_add_eq_or_of_lt low.isLt, Nat.shiftLeft_eq]

/-- Settles O6: the fetch read is the word of the two bytes. -/
theorem fetchReadIsBigEndian : Obligations.FetchReadIsBigEndian := by
  intro s a
  rw [State.memRead16_eq]
  refine ⟨fun hinside => ⟨_, if_pos hinside, toNat_wordOfBytes _ _⟩, fun houtside => if_neg ?_⟩
  exact Nat.not_le_of_lt (Nat.lt_succ_of_le houtside)

/-! ## The ranged write -/

/-- A ranged write changes memory and nothing else. -/
theorem State.setBytes_eq (bytes : List Byte) (s : State) (a : Nat) :
    s.setBytes a bytes = { s with mem := (s.setBytes a bytes).mem } := by
  induction bytes generalizing s a with
  | nil => rfl
  | cons b bytes ih => exact ih (s.setByte a b) (a + 1)

/-- Byte j of a ranged write at a is at a + j. -/
theorem State.byteAt_setBytes_add (s : State) (a : Nat) {bytes : List Byte} {j : Nat} (h : j < bytes.length) :
    (s.setBytes a bytes).byteAt (a + j) = bytes[j] := by
  simp [State.byteAt_setBytes, h]

/-- An address outside the range reads as before. -/
theorem State.byteAt_setBytes_outside (s : State) {a b : Nat} {bytes : List Byte}
    (h : b < a ∨ a + bytes.length ≤ b) : (s.setBytes a bytes).byteAt b = s.byteAt b := by
  rw [State.byteAt_setBytes]
  rcases h with hbelow | habove
  · rw [if_neg (Nat.not_le_of_lt hbelow)]
  · rw [List.getElem?_eq_none (by omega), Option.getD_none, ite_self]

/-- Memory and the configuration decide what every byte reads as. -/
theorem State.byteAt_congr (hmem : t.mem = s.mem) (hcfg : t.cfg = s.cfg) (a : Nat) : t.byteAt a = s.byteAt a := by
  rw [State.byteAt, State.byteAt, hmem, hcfg]

/-- Settles O47: outside its range a store keeps every byte; any other instruction keeps memory and configuration. -/
theorem memoryChangesOnlyWhereStored : Obligations.MemoryChangesOnlyWhereStored := by
  intro i s t a h hnot
  cases i with
  | ldBVx x =>
    obtain ⟨-, rfl⟩ := exec_ldBVx_next h
    have houtside : s.i.toNat ≤ a → s.i.toNat + 2 < a := by simpa [storesTo] using hnot
    rw [State.byteAt_next]
    exact s.byteAt_setBytes_outside (by rw [length_decimalDigits]; omega)
  | ldMemVx x =>
    obtain ⟨-, rfl⟩ := exec_ldMemVx_next h
    have houtside : s.i.toNat ≤ a → s.i.toNat + x.val < a := by simpa [storesTo] using hnot
    rw [State.byteAt_next]
    exact s.byteAt_setBytes_outside (by rw [State.length_regsThrough]; omega)
  | _ =>
    have f := exec_framed h
    exact State.byteAt_congr (f.mem rfl) f.cfg a

/-- A register dump puts V[k] at I + k (R155). -/
theorem exec_ldMemVx_byteAt {x : RegIdx} (h : exec (.ldMemVx x) s = .next t) {k : RegIdx} (hk : k ≤ x) :
    t.byteAt (s.i.toNat + k.val) = s.readV k := by
  obtain ⟨-, rfl⟩ := exec_ldMemVx_next h
  have hstored : (s.regsThrough x)[k.val]? = some (s.readV k) := by
    rw [State.getElem?_regsThrough, dif_pos (show k.val ≤ x.val from hk)]
  simp [State.byteAt_setBytes, hstored]

/-- Settles O31: the fetch reads the bytes at I and I + 1, which hold V[0] and V[1]. -/
theorem storedBytesAreTheNextWordFetched : Obligations.StoredBytesAreTheNextWordFetched := by
  intro x s t hx h hpc
  obtain ⟨hfits, -⟩ := exec_ldMemVx_next h
  have hhigh : t.byteAt s.i.toNat = s.readV 0 := exec_ldMemVx_byteAt h (Fin.zero_le x)
  have hlow : t.byteAt (s.i.toNat + 1) = s.readV 1 := exec_ldMemVx_byteAt h (k := 1) hx
  rw [hpc, State.memRead16_eq, if_pos (by omega), hhigh, hlow, wordOfBytes]

/-! ## The load (R56, R57) -/

variable {bytes : List Byte} {rest : List HostAction}

/-- A step whose action is a load is that load. -/
theorem step_of_load (h : s.schedule = .load bytes :: rest) : step s = loadProgram bytes (s.takeAction rest) := by
  simp only [step, h]

theorem loadProgram_of_le (s : State) (h : bytes.length ≤ programCapacity) :
    loadProgram bytes s = .next { s.setBytes programBase bytes with report := .done } :=
  if_neg (Nat.not_lt_of_le h)

theorem loadProgram_of_gt (s : State) (h : programCapacity < bytes.length) :
    loadProgram bytes s = .fault .capacityExceeded :=
  if_pos h

/-- Settles O41: a load that fits is the ranged write at 0x200; a longer one fails, and the host has only taken the
action. -/
theorem loadCopiesTheProgram : Obligations.LoadCopiesTheProgram := by
  intro s bytes rest hload
  rw [step_of_load hload]
  refine ⟨fun hfits => ⟨_, loadProgram_of_le _ hfits, fun j hj => ?_, fun a ha => ?_, ?_⟩, fun hlong => ⟨?_, ?_⟩⟩
  · exact (s.takeAction rest).byteAt_setBytes_add programBase hj
  · exact (s.takeAction rest).byteAt_setBytes_outside ha
  · rw [State.setBytes_eq]
    rfl
  · exact loadProgram_of_gt _ hlong
  · simp only [State.afterError, hload]

/-! ## The cells of the framebuffer (R59 to R61) -/

/-- The clear framebuffer reads 0 everywhere (R59). -/
@[simp] theorem fbGet_fbClear (px py : Nat) : fbGet fbClear px py = false := by
  simp [fbGet, fbClear]

/-- Coordinates are read modulo 64 and 32 (R60). -/
theorem fbGet_mod (fb : Framebuffer) (px py : Nat) : fbGet fb (px % 64) (py % 32) = fbGet fb px py := by
  simp only [fbGet, Nat.mod_mod]

/-- A get after a set: the bit that was set at that cell, what was there at every other one (R61). -/
theorem fbGet_fbSet (fb : Framebuffer) (px py qx qy : Nat) (b : Bool) :
    fbGet (fbSet fb px py b) qx qy
      = if qx % 64 = px % 64 ∧ qy % 32 = py % 32 then b else fbGet fb qx qy := by
  unfold fbGet fbSet
  by_cases hrow : qy % 32 = py % 32
  · by_cases hcol : qx % 64 = px % 64
    · simp [hrow, hcol]
    · simp [hrow, hcol, Vector.getElem_set_ne _ _ (Ne.symm hcol)]
  · simp [hrow, Vector.getElem_set_ne _ _ (Ne.symm hrow)]

/-- Settles O7: the three laws of the accessor. -/
theorem framebufferAccessorWraps : Obligations.FramebufferAccessorWraps := fun fb px py qx qy b =>
  ⟨fbGet_fbClear qx qy, (fbGet_mod fb px py).symm, fbGet_fbSet fb px py qx qy b⟩

end Sys2Proof.Machine
end

section
/-! PROOFS. Decoding and encoding (30_encoding.md rules R80 to R88): the decoder undoes the encoder, what it answers on
every word, and the table of masks and matches. -/

namespace Sys2Proof

variable {w : Word} {i : Instr} {c : Bool}

/-! ## Decode of encode (R88) -/

/-- The decoder gives back every instruction that exists, from its word: the fields select the arm, and they are its
operands. -/
theorem decodeWord_encode (h : i.wellFormed c = true) : decodeWord c (encode i) = .ok i := by
  cases i with
  | cls =>
    obtain rfl : c = true := h
    rfl
  | ret => rfl
  | jp nnn | call nnn | ldINnn nnn | jpV0 nnn => simp [encode, decodeWord]
  | seVxKk x kk | sneVxKk x kk | ldVxKk x kk | addVxKk x kk | rndVxKk x kk => simp [encode, decodeWord]
  | drw x y n => simp [encode, decodeWord]
  | seVxVy x y | sneVxVy x y => simp [encode, decodeWord, decodeRegSkip]
  | ldVxVy x y | orVxVy x y | andVxVy x y | xorVxVy x y | addVxVy x y | subVxVy x y | shrVxVy x y | subnVxVy x y
  | shlVxVy x y => simp [encode, decodeWord, decodeAlu]
  | skp x | sknp x => simp [encode, decodeWord, decodeKeySkip]
  | ldVxDt x | ldVxK x | ldDtVx x | ldStVx x | addIVx x | ldFVx x | ldBVx x | ldMemVx x | ldVxMem x =>
    simp [encode, decodeWord, decodeMisc]

/-- The decoder of bytes reads the word of the first two and hands on the rest (R80). -/
theorem decodeBytes_bytesOfWord (rest : List Byte) (h : decodeWord c w = .ok i) :
    decodeBytes c (bytesOfWord w ++ rest) = .ok (i, rest) := by
  simp [bytesOfWord, decodeBytes, wordOfBytes_bytesOfWord, h]

/-- Settles O1: the word decodes by its fields, and its two bytes are that word. -/
theorem decodeOfEncodeIsTheInstruction : Obligations.DecodeOfEncodeIsTheInstruction := fun _ _ rest h =>
  ⟨decodeWord_encode h, decodeBytes_bytesOfWord rest (decodeWord_encode h)⟩

/-! ## Encode of decode (R84, R85): the word put together again from the fields that select the arm and the rest -/

theorem encodeNnn_of_op {op : BitVec 4} (h : (opField w).toNat = op.toNat) : encodeNnn op (nnnField w) = w :=
  BitVec.eq_of_toNat_eq h ▸ encodeNnn_fields w

theorem encodeXkk_of_op {op : BitVec 4} (h : (opField w).toNat = op.toNat) : encodeXkk op (xField w) (kkField w) = w :=
  BitVec.eq_of_toNat_eq h ▸ encodeXkk_fields w

theorem encodeXkk_of_op_kk {op : BitVec 4} {kk : Byte} (h : (opField w).toNat = op.toNat)
    (hkk : (kkField w).toNat = kk.toNat) : encodeXkk op (xField w) kk = w :=
  BitVec.eq_of_toNat_eq hkk ▸ encodeXkk_of_op h

theorem encodeXyn_of_op {op : BitVec 4} (h : (opField w).toNat = op.toNat) :
    encodeXyn op (xField w) (yField w) (nField w) = w :=
  BitVec.eq_of_toNat_eq h ▸ encodeXyn_fields w

theorem encode_drw_of_op (h : (opField w).toNat = 0xD) :
    encode (.drw (xField w) (yField w) (regOfBits (nField w))) = w :=
  (congrArg _ (bitsOfReg_regOfBits _)).trans (encodeXyn_of_op h)

theorem encodeXyn_of_op_n {op n : BitVec 4} (h : (opField w).toNat = op.toNat) (hn : (nField w).toNat = n.toNat) :
    encodeXyn op (xField w) (yField w) n = w :=
  BitVec.eq_of_toNat_eq hn ▸ encodeXyn_of_op h

/-- What the decoder may answer about a word: an instruction that exists and encodes to the word, or that the word is
unknown. -/
def IsAnswer (c : Bool) (w : Word) : Except DecodeError Instr → Prop
  | .ok i => encode i = w ∧ i.wellFormed c = true
  | .error e => e = .unknownInstruction w

theorem decodeFixed_isAnswer : IsAnswer c w (decodeFixed c w) := by
  unfold decodeFixed
  split_ifs with hret hcls
  · exact ⟨hret.symm, rfl⟩
  · exact ⟨hcls.1.symm, hcls.2⟩
  · rfl

theorem decodeRegSkip_isAnswer (op : BitVec 4) {f : RegIdx → RegIdx → Instr} (h : (opField w).toNat = op.toNat)
    (hf : ∀ x y, encode (f x y) = encodeXyn op x y 0x0) (hwf : ∀ x y, (f x y).wellFormed c = true) :
    IsAnswer c w (decodeRegSkip f w) := by
  unfold decodeRegSkip
  split_ifs with hn
  · exact ⟨(hf _ _).trans (encodeXyn_of_op_n h (congrArg BitVec.toNat hn)), hwf _ _⟩
  · rfl

theorem decodeAlu_isAnswer (h : (opField w).toNat = 0x8) : IsAnswer c w (decodeAlu w) := by
  unfold decodeAlu
  split
  case h_10 => rfl
  case h_1 hn | h_2 hn | h_3 hn | h_4 hn | h_5 hn | h_6 hn | h_7 hn | h_8 hn | h_9 hn =>
    exact ⟨encodeXyn_of_op_n h hn, rfl⟩

theorem decodeKeySkip_isAnswer (h : (opField w).toNat = 0xE) : IsAnswer c w (decodeKeySkip w) := by
  unfold decodeKeySkip
  split
  case h_3 => rfl
  case h_1 hkk | h_2 hkk => exact ⟨encodeXkk_of_op_kk h hkk, rfl⟩

theorem decodeMisc_isAnswer (h : (opField w).toNat = 0xF) : IsAnswer c w (decodeMisc w) := by
  unfold decodeMisc
  split
  case h_10 => rfl
  case h_1 hkk | h_2 hkk | h_3 hkk | h_4 hkk | h_5 hkk | h_6 hkk | h_7 hkk | h_8 hkk | h_9 hkk =>
    exact ⟨encodeXkk_of_op_kk h hkk, rfl⟩

/-- Everything the decoder can answer, family by family. -/
theorem decodeWord_isAnswer (c : Bool) (w : Word) : IsAnswer c w (decodeWord c w) := by
  unfold decodeWord
  split
  case h_1 => exact decodeFixed_isAnswer
  case h_2 h | h_3 h | h_11 h | h_12 h => exact ⟨encodeNnn_of_op h, rfl⟩
  case h_4 h | h_5 h | h_7 h | h_8 h | h_13 h => exact ⟨encodeXkk_of_op h, rfl⟩
  case h_6 h => exact decodeRegSkip_isAnswer 0x5 h (fun _ _ => rfl) (fun _ _ => rfl)
  case h_9 h => exact decodeAlu_isAnswer h
  case h_10 h => exact decodeRegSkip_isAnswer 0x9 h (fun _ _ => rfl) (fun _ _ => rfl)
  case h_14 h => exact ⟨encode_drw_of_op h, rfl⟩
  case h_15 h => exact decodeKeySkip_isAnswer h
  case h_16 h => exact decodeMisc_isAnswer h
  case h_17 => rfl

theorem encode_of_decodeWord (h : decodeWord c w = .ok i) : encode i = w ∧ i.wellFormed c = true := by
  simpa only [h, IsAnswer] using decodeWord_isAnswer c w

theorem decodeWord_error {e : DecodeError} (h : decodeWord c w = .error e) : e = .unknownInstruction w := by
  simpa only [h, IsAnswer] using decodeWord_isAnswer c w

/-- Settles O2: one of the two things the decoder can answer. -/
theorem encodeOfDecodeIsTheWord : Obligations.EncodeOfDecodeIsTheWord := fun _ _ _ h => encode_of_decodeWord h

/-! ## The table (R84) -/

open Laws.EncodeMatchesRow in
/-- The word of every instruction matches the row of its number. -/
theorem encode_matchesRow : ∀ i : Instr, Statement i
  | .cls => cls
  | .ret => ret
  | .jp _ => jp _
  | .call _ => call _
  | .seVxKk _ _ => seVxKk _ _
  | .sneVxKk _ _ => sneVxKk _ _
  | .seVxVy _ _ => seVxVy _ _
  | .ldVxKk _ _ => ldVxKk _ _
  | .addVxKk _ _ => addVxKk _ _
  | .ldVxVy _ _ => ldVxVy _ _
  | .orVxVy _ _ => orVxVy _ _
  | .andVxVy _ _ => andVxVy _ _
  | .xorVxVy _ _ => xorVxVy _ _
  | .addVxVy _ _ => addVxVy _ _
  | .subVxVy _ _ => subVxVy _ _
  | .shrVxVy _ _ => shrVxVy _ _
  | .subnVxVy _ _ => subnVxVy _ _
  | .shlVxVy _ _ => shlVxVy _ _
  | .sneVxVy _ _ => sneVxVy _ _
  | .ldINnn _ => ldINnn _
  | .jpV0 _ => jpV0 _
  | .rndVxKk _ _ => rndVxKk _ _
  | .drw _ _ _ => drw _ _ _
  | .skp _ => skp _
  | .sknp _ => sknp _
  | .ldVxDt _ => ldVxDt _
  | .ldVxK _ => ldVxK _
  | .ldDtVx _ => ldDtVx _
  | .ldStVx _ => ldStVx _
  | .addIVx _ => addIVx _
  | .ldFVx _ => ldFVx _
  | .ldBVx _ => ldBVx _
  | .ldMemVx _ => ldMemVx _
  | .ldVxMem _ => ldVxMem _

/-- A field that the mask covers is the field of what is left under it. -/
theorem toNat_extract_of_mask {mask m : Word} {start len : Nat} {f : BitVec len} (h : w &&& mask = m)
    (hcover : mask.extractLsb' start len = BitVec.allOnes len) (hm : m.extractLsb' start len = f) :
    (w.extractLsb' start len).toNat = f.toNat := by
  rw [← hm, ← h, BitVec.extractLsb'_and, hcover, BitVec.and_allOnes]

/-! A word put together again from what is left under the mask of a row, format by format: zeros stand in the fields
that the mask does not cover. -/

theorem eq_of_mask {m : Word} (h : w &&& 0xFFFF = m) : m = w :=
  h.symm.trans BitVec.and_allOnes

theorem encodeNnn_of_mask {op : BitVec 4} (h : w &&& 0xF000 = encodeNnn op 0) : encodeNnn op (nnnField w) = w :=
  encodeNnn_of_op (toNat_extract_of_mask h rfl (opField_encodeNnn op 0))

theorem encodeXkk_of_mask {op : BitVec 4} (h : w &&& 0xF000 = encodeXkk op 0 0) :
    encodeXkk op (xField w) (kkField w) = w :=
  encodeXkk_of_op (toNat_extract_of_mask h rfl (opField_encodeXkk op 0 0))

theorem encodeXkk_of_mask_kk {op : BitVec 4} {kk : Byte} (h : w &&& 0xF0FF = encodeXkk op 0 kk) :
    encodeXkk op (xField w) kk = w :=
  encodeXkk_of_op_kk (toNat_extract_of_mask h rfl (opField_encodeXkk op 0 kk))
    (toNat_extract_of_mask h rfl (kkField_encodeXkk op 0 kk))

theorem encodeXyn_of_mask_n {op n : BitVec 4} (h : w &&& 0xF00F = encodeXyn op 0 0 n) :
    encodeXyn op (xField w) (yField w) n = w :=
  encodeXyn_of_op_n (toNat_extract_of_mask h rfl (opField_encodeXyn op 0 0 n))
    (toNat_extract_of_mask h rfl (nField_encodeXyn op 0 0 n))

theorem encode_drw_of_mask (h : w &&& 0xF000 = encodeXyn 0xD 0 0 0) :
    encode (.drw (xField w) (yField w) (regOfBits (nField w))) = w :=
  encode_drw_of_op (toNat_extract_of_mask h rfl (opField_encodeXyn 0xD 0 0 0))

/-- A word that matches a row is the word of an instruction of that row. -/
theorem exists_encode_of_matchesRow (w : Word) : ∀ row ∈ opcodeRows, matchesRow w row = true →
    ∃ i : Instr, i.rowNumber = row.1 ∧ encode i = w := by
  simp only [opcodeRows, opcodeRowsLow, opcodeRowsHigh, List.cons_append, List.nil_append, List.forall_mem_cons,
    matchesRow, beq_iff_eq]
  exact ⟨
    fun h => ⟨.cls, rfl, eq_of_mask h⟩,
    fun h => ⟨.ret, rfl, eq_of_mask h⟩,
    fun h => ⟨.jp (nnnField w), rfl, encodeNnn_of_mask h⟩,
    fun h => ⟨.call (nnnField w), rfl, encodeNnn_of_mask h⟩,
    fun h => ⟨.seVxKk (xField w) (kkField w), rfl, encodeXkk_of_mask h⟩,
    fun h => ⟨.sneVxKk (xField w) (kkField w), rfl, encodeXkk_of_mask h⟩,
    fun h => ⟨.seVxVy (xField w) (yField w), rfl, encodeXyn_of_mask_n h⟩,
    fun h => ⟨.ldVxKk (xField w) (kkField w), rfl, encodeXkk_of_mask h⟩,
    fun h => ⟨.addVxKk (xField w) (kkField w), rfl, encodeXkk_of_mask h⟩,
    fun h => ⟨.ldVxVy (xField w) (yField w), rfl, encodeXyn_of_mask_n h⟩,
    fun h => ⟨.orVxVy (xField w) (yField w), rfl, encodeXyn_of_mask_n h⟩,
    fun h => ⟨.andVxVy (xField w) (yField w), rfl, encodeXyn_of_mask_n h⟩,
    fun h => ⟨.xorVxVy (xField w) (yField w), rfl, encodeXyn_of_mask_n h⟩,
    fun h => ⟨.addVxVy (xField w) (yField w), rfl, encodeXyn_of_mask_n h⟩,
    fun h => ⟨.subVxVy (xField w) (yField w), rfl, encodeXyn_of_mask_n h⟩,
    fun h => ⟨.shrVxVy (xField w) (yField w), rfl, encodeXyn_of_mask_n h⟩,
    fun h => ⟨.subnVxVy (xField w) (yField w), rfl, encodeXyn_of_mask_n h⟩,
    fun h => ⟨.shlVxVy (xField w) (yField w), rfl, encodeXyn_of_mask_n h⟩,
    fun h => ⟨.sneVxVy (xField w) (yField w), rfl, encodeXyn_of_mask_n h⟩,
    fun h => ⟨.ldINnn (nnnField w), rfl, encodeNnn_of_mask h⟩,
    fun h => ⟨.jpV0 (nnnField w), rfl, encodeNnn_of_mask h⟩,
    fun h => ⟨.rndVxKk (xField w) (kkField w), rfl, encodeXkk_of_mask h⟩,
    fun h => ⟨.drw (xField w) (yField w) (regOfBits (nField w)), rfl, encode_drw_of_mask h⟩,
    fun h => ⟨.skp (xField w), rfl, encodeXkk_of_mask_kk h⟩,
    fun h => ⟨.sknp (xField w), rfl, encodeXkk_of_mask_kk h⟩,
    fun h => ⟨.ldVxDt (xField w), rfl, encodeXkk_of_mask_kk h⟩,
    fun h => ⟨.ldVxK (xField w), rfl, encodeXkk_of_mask_kk h⟩,
    fun h => ⟨.ldDtVx (xField w), rfl, encodeXkk_of_mask_kk h⟩,
    fun h => ⟨.ldStVx (xField w), rfl, encodeXkk_of_mask_kk h⟩,
    fun h => ⟨.addIVx (xField w), rfl, encodeXkk_of_mask_kk h⟩,
    fun h => ⟨.ldFVx (xField w), rfl, encodeXkk_of_mask_kk h⟩,
    fun h => ⟨.ldBVx (xField w), rfl, encodeXkk_of_mask_kk h⟩,
    fun h => ⟨.ldMemVx (xField w), rfl, encodeXkk_of_mask_kk h⟩,
    fun h => ⟨.ldVxMem (xField w), rfl, encodeXkk_of_mask_kk h⟩,
    nofun⟩

/-- The number of a row names the row. -/
theorem opcodeRows_number_inj : ∀ row ∈ opcodeRows, ∀ row' ∈ opcodeRows, row.1 = row'.1 → row = row' := by
  decide

/-- Only an instruction of the row of CLS asks for CLS_ENABLED (R86). -/
theorem wellFormed_iff_rowNumber : i.wellFormed c = true ↔ (i.rowNumber = 1 → c = true) := by
  cases i <;> simp [Instr.wellFormed, Instr.rowNumber]

/-- No two instructions have one word: they would both decode from it. -/
theorem encode_injective : Function.Injective encode := by
  intro i i' h
  have hdec (i : Instr) : decodeWord true (encode i) = .ok i :=
    decodeWord_encode (wellFormed_iff_rowNumber.mpr fun _ => rfl)
  exact Except.ok.inj ((hdec i).symm.trans (h ▸ hdec i'))

/-- Settles O3: a word matches the row of an instruction exactly when it is that instruction's word, and by O1 and O2 it
is the word of what it decodes to and of nothing else. -/
theorem opcodeMapDecidesEveryWord : Obligations.OpcodeMapDecidesEveryWord := by
  intro c w
  have hdecoded (i : Instr) (h : decodeWord c w = .ok i) :
      ∃ row ∈ opcodeRows, row.1 = i.rowNumber ∧ matchesRow w row = true := by
    obtain ⟨rfl, -⟩ := encode_of_decodeWord h
    exact encode_matchesRow i
  refine ⟨hdecoded, fun row hrow h hcls => ?_, fun row hrow row' hrow' h h' => ?_, fun hnone => ?_⟩
  · obtain ⟨i, hi, rfl⟩ := exists_encode_of_matchesRow w row hrow h
    exact ⟨i, hi, rfl, decodeWord_encode (wellFormed_iff_rowNumber.mpr (hi ▸ hcls))⟩
  · obtain ⟨i, hi, rfl⟩ := exists_encode_of_matchesRow w row hrow h
    obtain ⟨i', hi', hw⟩ := exists_encode_of_matchesRow _ row' hrow' h'
    obtain rfl := encode_injective hw
    exact opcodeRows_number_inj row hrow row' hrow' (hi.symm.trans hi')
  · cases hd : decodeWord c w with
    | error e => rw [decodeWord_error hd]
    | ok i =>
      obtain ⟨row, hrow, hi, h⟩ := hdecoded i hd
      obtain ⟨hone, hc⟩ := hnone row hrow h
      obtain ⟨-, hwf⟩ := encode_of_decodeWord hd
      exact absurd (wellFormed_iff_rowNumber.mp hwf (hi.symm.trans hone)) (by simp [hc])

/-- Settles O4: each word is a closed term, and so is what it decodes to. -/
theorem sampleWordsDecodeAsTheTableSays : Obligations.SampleWordsDecodeAsTheTableSays := by
  unfold Obligations.SampleWordsDecodeAsTheTableSays
  decide

end Sys2Proof
end

section
/-! PROOFS. Control transfer (40_flow.md rules R100 to R104): the two jumps, the two outcomes of CALL, the three of
RET, and the return that undoes a call. -/

namespace Sys2Proof.Machine

variable {s : State}

/-! ## The jumps (R100, R104) -/

/-- Zero extension keeps the number (R83). -/
@[simp] theorem toNat_zext12 (nnn : Literal12) : (zext12 nnn).toNat = nnn.toNat :=
  BitVec.toNat_setWidth_of_le (by decide)

@[simp] theorem toNat_zext8 (b : Byte) : (zext8 b).toNat = b.toNat :=
  BitVec.toNat_setWidth_of_le (by decide)

/-- The sum of a literal and a register is below 4096 + 256, so PC holds it in full (decision D9). -/
theorem toNat_zext12_add_zext8 (nnn : Literal12) (b : Byte) :
    (zext12 nnn + zext8 b).toNat = nnn.toNat + b.toNat := by
  have hnnn : nnn.toNat < 2 ^ 12 := nnn.isLt
  have hb : b.toNat < 2 ^ 8 := b.isLt
  rw [BitVec.toNat_add, toNat_zext12, toNat_zext8, Nat.mod_eq_of_lt (by omega)]

/-- Settles O14: the word is JP's encoding, which the decoder undoes; the meaning is finish at the literal. -/
theorem jumpGoesToItsTarget : Obligations.JumpGoesToItsTarget := fun nnn _ =>
  ⟨fun _ => decodeWord_encode (i := .jp nnn) rfl, _, rfl, toNat_zext12 nnn, rfl⟩

/-- Settles O15: the meaning is finish at the sum, which does not overflow PC. -/
theorem offsetJumpGoesToTheSum : Obligations.OffsetJumpGoesToTheSum := fun nnn s =>
  ⟨_, rfl, toNat_zext12_add_zext8 nnn (s.readV 0), rfl⟩

/-! ## What CALL and RET do (R101, R102) -/

theorem exec_call_of_full (nnn : Literal12) (h : s.stackFull = true) :
    exec (.call nnn) s = .fault .capacityExceeded := if_pos h

theorem exec_call_of_not_full (nnn : Literal12) (h : s.stackFull = false) :
    exec (.call nnn) s = .next ((s.push (s.pc + 2)).finish (zext12 nnn)) := by
  simp [exec, execCall, h]

theorem exec_ret_of_empty (h : s.stackEmpty = true) : exec .ret s = .fault .capacityExceeded := if_pos h

theorem exec_ret_of_top {a : Word} (hempty : s.stackEmpty = false) (htop : s.stackTop = some a) :
    exec .ret s = .next (s.pop.finish a) := by
  simp [exec, execRet, hempty, htop]

theorem exec_ret_of_no_top (hempty : s.stackEmpty = false) (htop : s.stackTop = none) :
    exec .ret s = .fault .stackPointerOutsideStack := by
  simp [exec, execRet, hempty, htop, raise]

/-! ## A push that fits (R101) -/

/-- The stack has room exactly when fewer calls are outstanding than the usable depth and SP + 1 numbers an entry,
under every configuration. -/
theorem State.stackFull_eq_false_iff :
    s.stackFull = false ↔ s.callDepth < s.cfg.stackUsableDepth ∧ (s.sp + 1).toNat < 16 := by
  simp only [State.stackFull, Bool.or_eq_false_iff, decide_eq_false_iff_not, not_le]

/-- A push on a stack that is not full leaves the address it stored on top (R101). -/
theorem State.stackTop_push (a : Word) (hfull : s.stackFull = false) : (s.push a).stackTop = some a := by
  obtain ⟨-, hin⟩ := State.stackFull_eq_false_iff.mp hfull
  rw [State.stackTop, State.push_sp, State.push_stack, Vector.getElem?_setIfInBounds_self_of_lt hin]

/-! ## The stack under decision D3 (R27 to R29) -/

/-- With the empty value 0, SP counts the outstanding calls. -/
theorem State.callDepth_of_spReset (h : s.cfg.spReset = 0) : s.callDepth = s.sp.toNat := by
  rw [State.callDepth, h, sub_zero]

/-- With the empty value 0 and the depth 15 the stack is full exactly from SP = 15 on; an SP of 255, whose next entry
would be 0 again, is among the full ones. -/
theorem State.stackFull_eq (hreset : s.cfg.spReset = 0) (hdepth : s.cfg.stackUsableDepth = 15) :
    s.stackFull = decide (15 ≤ s.sp.toNat) := by
  have hbelow : 16 ≤ (s.sp + 1).toNat → 15 ≤ s.sp.toNat := by bv_omega
  rw [State.stackFull, State.callDepth_of_spReset hreset, hdepth, Bool.or_eq_left_iff_imp]
  simpa only [decide_eq_true_eq] using hbelow

/-- With the empty value 0 the stack is empty exactly at SP = 0. -/
theorem State.stackEmpty_eq (h : s.cfg.spReset = 0) : s.stackEmpty = decide (s.sp.toNat = 0) := by
  rw [State.stackEmpty, h, Bool.eq_iff_iff, beq_iff_eq, decide_eq_true_eq]
  exact BitVec.toNat_inj.symm

/-- A push at an SP below 15 does not wrap SP. -/
theorem State.toNat_push_sp (a : Word) (h : s.sp.toNat < 15) : (s.push a).sp.toNat = s.sp.toNat + 1 := by
  rw [State.push_sp]
  bv_omega

/-- Settles O16: below 15 the stack is not full, and the push stores at the entry SP + 1 alone; from 15 on it is full. -/
theorem callPushesTheReturnAddress : Obligations.CallPushesTheReturnAddress := by
  intro nnn s hreset hdepth
  have hfull := State.stackFull_eq hreset hdepth
  refine ⟨fun hroom => ?_, fun hdeep => exec_call_of_full nnn (hfull.trans (decide_eq_true hdeep))⟩
  have hfits : s.stackFull = false := hfull.trans (decide_eq_false (Nat.not_le_of_lt hroom))
  have hsp := State.toNat_push_sp (s.pc + 2) hroom
  have htop := State.stackTop_push (s.pc + 2) hfits
  rw [State.stackTop, hsp] at htop
  refine ⟨_, exec_call_of_not_full nnn hfits, toNat_zext12 nnn, hsp, htop, fun k hk => ?_, rfl⟩
  exact Vector.getElem_setIfInBounds_ne k.isLt (hsp.symm ▸ hk.symm)

/-- Settles O17: SP in 1 to 15 is not empty and numbers an entry, SP = 0 is empty, and above 15 there is no entry. -/
theorem returnPopsTheReturnAddress : Obligations.ReturnPopsTheReturnAddress := by
  intro s hreset
  have hempty := State.stackEmpty_eq hreset
  refine ⟨fun hlo hhi => ?_, fun hzero => exec_ret_of_empty (hempty.trans (decide_eq_true hzero)), fun habove => ?_⟩
  · have htop : s.stackTop = some s.stack[s.sp.toNat] := Vector.getElem?_eq_getElem _
    have hsp : (s.sp - 1).toNat + 1 = s.sp.toNat := by bv_omega
    exact ⟨_, exec_ret_of_top (hempty.trans (decide_eq_false (by omega))) htop, rfl, hsp, rfl⟩
  · have htop : s.stackTop = none := Vector.getElem?_eq_none habove
    exact exec_ret_of_no_top (hempty.trans (decide_eq_false (by omega))) htop

/-! ## RET after CALL (R103) -/

/-- A push on a stack that is not full does not bring SP round to the empty value: inside the spec's limits at most
sixteen calls are outstanding (R29). -/
theorem State.stackEmpty_push (a : Word) (hc : s.cfg.wf = true) (hfull : s.stackFull = false) :
    (s.push a).stackEmpty = false := by
  obtain ⟨hroom, -⟩ := State.stackFull_eq_false_iff.mp hfull
  have hlimit : s.cfg.stackUsableDepth ≤ 16 := by
    rcases Config.stackLimits_of_wf hc with h | ⟨-, h⟩ <;> omega
  have hne : s.sp + 1 ≠ s.cfg.spReset := by
    rw [State.callDepth] at hroom
    bv_omega
  exact beq_eq_false_iff_ne.mpr hne

/-- Settles O18: RET reads only SP, the stack and the empty value, and those are the ones the push left. -/
theorem callThenReturnResumesAfterTheCall : Obligations.CallThenReturnResumesAfterTheCall := by
  intro nnn s t u hwf hcall hsp hstack hcfg
  obtain ⟨hfull, rfl⟩ := exec_call_next hcall
  have hempty : u.stackEmpty = false := by
    rw [State.stackEmpty, hsp, hcfg]
    exact State.stackEmpty_push (s.pc + 2) hwf hfull
  have htop : u.stackTop = some (s.pc + 2) := by
    rw [State.stackTop, hsp, hstack]
    exact State.stackTop_push (s.pc + 2) hfull
  refine ⟨_, exec_ret_of_top hempty htop, rfl, ?_⟩
  rw [State.finish_sp, State.pop_sp, hsp, State.finish_sp, State.push_sp, add_sub_cancel_right]

end Sys2Proof.Machine
end

section
/-! PROOFS. Conditional skips on registers (41_skip.md rules R120 to R123): the words of families 5 and 9, and the two
outcomes of a skip. -/

namespace Sys2Proof

/-- The four nibbles of a word, put together from the left, are its format XYN (R82). -/
theorem append_nibbles_eq_encodeXyn (op : BitVec 4) (x y : RegIdx) (n : BitVec 4) :
    op ++ bitsOfReg x ++ bitsOfReg y ++ n = encodeXyn op x y n :=
  BitVec.append_assoc

/-- Families 5 and 9 hold one row each, the one with n = 0: any other n is unknown (R85, R122, R123). -/
theorem decodeRegSkip_encodeXyn_of_ne_zero {n : BitVec 4} (f : RegIdx → RegIdx → Instr) (op : BitVec 4) (x y : RegIdx)
    (h : n ≠ 0) : decodeRegSkip f (encodeXyn op x y n) = .error (.unknownInstruction (encodeXyn op x y n)) :=
  if_neg (by rwa [nField_encodeXyn])

/-- Family 5 selects the skip on equal registers. -/
theorem decodeWord_encodeXyn_five (c : Bool) (x y : RegIdx) (n : BitVec 4) :
    decodeWord c (encodeXyn 0x5 x y n) = decodeRegSkip .seVxVy (encodeXyn 0x5 x y n) := by
  simp [decodeWord]

/-- Family 9 selects the skip on unequal registers. -/
theorem decodeWord_encodeXyn_nine (c : Bool) (x y : RegIdx) (n : BitVec 4) :
    decodeWord c (encodeXyn 0x9 x y n) = decodeRegSkip .sneVxVy (encodeXyn 0x9 x y n) := by
  simp [decodeWord]

namespace Machine

/-- A skip under a test moves PC by 4 when what it tests holds and by 2 when not, and ends the cycle (R25, R120). -/
theorem State.skipIf_of_iff (s : State) {test : Bool} {p : Prop} [Decidable p] (h : test = true ↔ p) :
    s.skipIf test = { s with pc := (if p then s.pc + 4 else s.pc + 2), report := .done } := by
  rw [State.skipIf, if_congr h rfl rfl]
  split_ifs <;> rfl

/-- Settles O19: the words of the skips are their encodings, which the decoder undoes; each meaning is skipIf at the
equality test or its complement. -/
theorem registerSkipsCompareAndSkip : Obligations.RegisterSkipsCompareAndSkip := by
  intro x y kk s
  refine ⟨fun c => ?words, ?seKk, ?sneKk, ?seVy, ?sneVy⟩
  case words =>
    simp only [append_nibbles_eq_encodeXyn]
    refine ⟨decodeWord_encode (i := .seVxKk x kk) rfl, decodeWord_encode (i := .sneVxKk x kk) rfl,
      decodeWord_encode (i := .seVxVy x y) rfl, decodeWord_encode (i := .sneVxVy x y) rfl, fun n hn => ⟨?_, ?_⟩⟩
    · exact (decodeWord_encodeXyn_five c x y n).trans (decodeRegSkip_encodeXyn_of_ne_zero _ _ x y hn)
    · exact (decodeWord_encodeXyn_nine c x y n).trans (decodeRegSkip_encodeXyn_of_ne_zero _ _ x y hn)
  case seKk | seVy => exact congrArg Host.Outcome.next (s.skipIf_of_iff beq_iff_eq)
  case sneKk | sneVy => exact congrArg Host.Outcome.next (s.skipIf_of_iff bne_iff_ne)

end Machine

end Sys2Proof
end

section
/-! PROOFS. Register loads and the ALU (42_alu.md rules R130 to R141): what the results and the flags are as numbers,
what a result and its flag leave in the registers, and the ten instructions. -/

namespace Sys2Proof.Machine

variable {s : State} {x r : RegIdx} {b : Byte} {f : Bool}

/-! ## Results and flags as numbers (R22, R136 to R140) -/

/-- A difference of bytes is taken modulo 256, the minuend raised by 256 (R137, R139). -/
theorem toNat_sub_byte (a b : Byte) : (a - b).toNat = (a.toNat + 256 - b.toNat) % 256 := by
  have hb : b.toNat < 256 := b.isLt
  rw [BitVec.toNat_sub', Nat.add_sub_assoc hb.le a.toNat]

theorem toNat_ushiftRight_one (b : Byte) : (b >>> 1).toNat = b.toNat / 2 := by
  rw [BitVec.toNat_ushiftRight, Nat.shiftRight_eq_div_pow, pow_one]

theorem toNat_shiftLeft_one (b : Byte) : (b <<< 1).toNat = b.toNat * 2 % 256 := by
  rw [BitVec.toNat_shiftLeft, Nat.shiftLeft_eq, pow_one]

theorem flagByte_carryOut (a b : Byte) : flagByte (carryOut a b) = if a.toNat + b.toNat > 255 then 1 else 0 := by
  simp [flagByte, carryOut]

theorem flagByte_noBorrow (a b : Byte) : flagByte (noBorrow a b) = if b.toNat ≤ a.toNat then 1 else 0 := by
  simp [flagByte, noBorrow]

theorem toNat_flagByte (f : Bool) : (flagByte f).toNat = f.toNat := by
  cases f <;> rfl

theorem toNat_flagByte_shiftedOutRight (b : Byte) : (flagByte (shiftedOutRight b)).toNat = b.toNat % 2 := by
  rw [toNat_flagByte, shiftedOutRight, BitVec.getLsbD, Nat.toNat_testBit, pow_zero, Nat.div_one]

/-- Bit 7 is the quotient by 128, since a byte is below 256 (R140). -/
theorem toNat_flagByte_shiftedOutLeft (b : Byte) : (flagByte (shiftedOutLeft b)).toNat = b.toNat / 128 := by
  have hb : b.toNat < 256 := b.isLt
  rw [toNat_flagByte, shiftedOutLeft, BitVec.getLsbD, Nat.toNat_testBit, Nat.mod_eq_of_lt (by omega)]

/-! ## One register written (R130 to R135) -/

theorem State.readV_writeV_of_ne (h : r ≠ x) : (s.writeV x b).readV r = s.readV r := by
  rw [State.readV_writeV, if_neg h]

/-- Settles O20: the words are encodings, which the decoder undoes; each meaning is one register write. -/
theorem loadsAndImmediateAdd : Obligations.LoadsAndImmediateAdd := by
  intro x y kk s
  refine ⟨fun c => ⟨decodeWord_encode (i := .ldVxKk x kk) rfl, decodeWord_encode (i := .addVxKk x kk) rfl, ?_⟩,
    ⟨_, rfl, s.readV_writeV_self x _, fun _ => State.readV_writeV_of_ne, rfl⟩,
    ⟨_, rfl, ?_, fun _ => State.readV_writeV_of_ne, rfl⟩,
    ⟨_, rfl, s.readV_writeV_self x _, fun _ => State.readV_writeV_of_ne, rfl⟩⟩
  · rw [append_nibbles_eq_encodeXyn]
    exact decodeWord_encode (i := .ldVxVy x y) rfl
  · rw [State.readV_next, State.readV_writeV_self, BitVec.toNat_add]

/-- Settles O21: each meaning is one register write, and the operators on bytes act bit by bit. -/
theorem logicIsBitwise : Obligations.LogicIsBitwise := fun x y s =>
  ⟨⟨_, rfl, fun k => by rw [State.readV_next, State.readV_writeV_self, BitVec.getLsbD_or],
      fun _ => State.readV_writeV_of_ne, rfl⟩,
    ⟨_, rfl, fun k => by rw [State.readV_next, State.readV_writeV_self, BitVec.getLsbD_and],
      fun _ => State.readV_writeV_of_ne, rfl⟩,
    ⟨_, rfl, fun k => by rw [State.readV_next, State.readV_writeV_self, BitVec.getLsbD_xor],
      fun _ => State.readV_writeV_of_ne, rfl⟩⟩

/-! ## A result and a flag written (R136 to R141) -/

/-- The destination holds the result when the result is written last or the destination is not VF (R141). -/
theorem State.readV_result_writeResultAndFlag (s : State) {x : RegIdx} (b : Byte) (f : Bool)
    (h : s.cfg.vfWriteOrder = .resultLast ∨ x ≠ flagReg) : (s.writeResultAndFlag x b f).readV x = b := by
  rcases h with hlast | hx
  · simp [State.writeResultAndFlag, hlast]
  · rw [s.readV_writeResultAndFlag_of_ne hx, if_pos rfl]

/-- A flag-writing instruction changes V, moves PC by 2, reports that it is done, and leaves everything else (R20). -/
theorem State.next_writeResultAndFlag (s : State) (x : RegIdx) (b : Byte) (f : Bool) :
    (s.writeResultAndFlag x b f).next
      = { s with v := (s.writeResultAndFlag x b f).next.v, pc := s.pc + 2, report := .done } := by
  unfold State.writeResultAndFlag
  cases s.cfg.vfWriteOrder <;> rfl

/-- Settles O22: the destination and VF are two registers, so one holds the result and the other the flag. -/
theorem flaggedAluResultAndFlag : Obligations.FlaggedAluResultAndFlag := by
  intro x y s hx
  have hresult (b f) : (s.writeResultAndFlag x b f).next.readV x = b :=
    s.readV_result_writeResultAndFlag b f (.inr hx)
  have hflag (b f) : (s.writeResultAndFlag x b f).next.readV 15 = flagByte f :=
    s.readV_flag_writeResultAndFlag b f (.inr hx)
  have hother (b f r) : r ≠ x → r ≠ 15 → (s.writeResultAndFlag x b f).next.readV r = s.readV r :=
    s.readV_writeResultAndFlag_other x r b f
  have hframe := s.next_writeResultAndFlag x
  exact
    ⟨⟨_, rfl, by rw [hresult, BitVec.toNat_add], by rw [hflag, flagByte_carryOut], hother _ _, hframe _ _⟩,
      ⟨_, rfl, by rw [hresult, toNat_sub_byte], by rw [hflag, flagByte_noBorrow], hother _ _, hframe _ _⟩,
      ⟨_, rfl, by rw [hresult, toNat_ushiftRight_one], by rw [hflag, toNat_flagByte_shiftedOutRight], hother _ _,
        hframe _ _⟩,
      ⟨_, rfl, by rw [hresult, toNat_sub_byte], by rw [hflag, flagByte_noBorrow], hother _ _, hframe _ _⟩,
      ⟨_, rfl, by rw [hresult, toNat_shiftLeft_one], by rw [hflag, toNat_flagByte_shiftedOutLeft], hother _ _,
        hframe _ _⟩⟩

/-- With VF as destination, one register changes. -/
theorem State.readV_writeResultAndFlag_flagReg_of_ne (h : r ≠ flagReg) :
    (s.writeResultAndFlag flagReg b f).readV r = s.readV r :=
  s.readV_writeResultAndFlag_other flagReg r b f h h

/-- Settles O23: VF is read back as the flag, which is written over the result. -/
theorem flagWinsOverResultInVf : Obligations.FlagWinsOverResultInVf := by
  intro y s hlast
  have hflag (b f) : (s.writeResultAndFlag 15 b f).next.readV 15 = flagByte f := s.readV_flag_of_flagLast hlast 15 b f
  have hother (b f r) : r ≠ 15 → (s.writeResultAndFlag 15 b f).next.readV r = s.readV r :=
    State.readV_writeResultAndFlag_flagReg_of_ne
  have hframe := s.next_writeResultAndFlag 15
  exact
    ⟨⟨_, rfl, by rw [hflag, flagByte_carryOut], hother _ _, hframe _ _⟩,
      ⟨_, rfl, by rw [hflag, flagByte_noBorrow], hother _ _, hframe _ _⟩,
      ⟨_, rfl, by rw [hflag, toNat_flagByte_shiftedOutRight], hother _ _, hframe _ _⟩,
      ⟨_, rfl, by rw [hflag, flagByte_noBorrow], hother _ _, hframe _ _⟩,
      ⟨_, rfl, by rw [hflag, toNat_flagByte_shiftedOutLeft], hother _ _, hframe _ _⟩⟩

/-- Settles O24: VF is read back as the result, which is written over the flag. -/
theorem resultWinsOverFlagWhenWrittenLast : Obligations.ResultWinsOverFlagWhenWrittenLast := by
  intro y s hlast
  have hresult (b f) : (s.writeResultAndFlag 15 b f).next.readV 15 = b :=
    s.readV_result_writeResultAndFlag b f (.inl hlast)
  have hother (b f r) : r ≠ 15 → (s.writeResultAndFlag 15 b f).next.readV r = s.readV r :=
    State.readV_writeResultAndFlag_flagReg_of_ne
  have hframe := s.next_writeResultAndFlag 15
  exact
    ⟨⟨_, rfl, by rw [hresult, BitVec.toNat_add], hother _ _, hframe _ _⟩,
      ⟨_, rfl, by rw [hresult, toNat_sub_byte], hother _ _, hframe _ _⟩,
      ⟨_, rfl, by rw [hresult, toNat_ushiftRight_one], hother _ _, hframe _ _⟩,
      ⟨_, rfl, by rw [hresult, toNat_sub_byte], hother _ _, hframe _ _⟩,
      ⟨_, rfl, by rw [hresult, toNat_shiftLeft_one], hother _ _, hframe _ _⟩⟩

end Sys2Proof.Machine
end

section
/-! PROOFS. The index register and the memory instructions (43_index_memory.md rules R150 to R157): the addresses I is
set to, everything the three memory instructions can do, the decimal digits, and the registers stored and loaded back. -/

namespace Sys2Proof.Machine

/-! ## The index register (R150 to R152) -/

/-- Settles O25: the word is LD I's encoding, which the decoder undoes; the meaning is setI at the literal. -/
theorem loadIndexSetsI : Obligations.LoadIndexSetsI := fun nnn _ =>
  ⟨fun _ => decodeWord_encode (i := .ldINnn nnn) rfl, _, rfl, toNat_zext12 nnn, rfl⟩

/-- The limits on the glyphs' parameters: the table lies below 0x200 and every glyph in it (decision D16). -/
theorem Config.glyphLimits_of_wf {c : Config} (h : c.wf = true) :
    c.fontBase + 80 ≤ 0x200 ∧ 15 * c.glyphStride + 5 ≤ 80 := by
  simp only [Config.wf, Bool.and_eq_true, decide_eq_true_eq] at h
  exact h.1

/-- The low nibble is the remainder by 16 (R152). -/
theorem toNat_and_lowNibble (b : Byte) : (b &&& 0x0F).toNat = b.toNat % 16 := by
  rw [BitVec.toNat_and]
  exact Nat.and_two_pow_sub_one_eq_mod b.toNat 4

/-- Inside the limits a glyph address is below 0x200, so I holds it in full (decision D16). -/
theorem toNat_glyphAddress {c : Config} (h : c.wf = true) (b : Byte) :
    (glyphAddress c b).toNat = c.fontBase + c.glyphStride * (b.toNat % 16) := by
  obtain ⟨htable, hglyphs⟩ := Config.glyphLimits_of_wf h
  have hglyph : c.glyphStride * (b.toNat % 16) ≤ c.glyphStride * 15 := Nat.mul_le_mul_left _ (by omega)
  rw [glyphAddress, toNat_and_lowNibble, BitVec.toNat_ofNat, Nat.mod_eq_of_lt (by omega)]

/-- Settles O26: each meaning is setI, at the sum modulo 65536 and at the glyph address. -/
theorem addIndexAndGlyphAddress : Obligations.AddIndexAndGlyphAddress := by
  intro x s
  refine ⟨⟨_, rfl, ?_, rfl⟩, fun hwf => ⟨_, rfl, toNat_glyphAddress hwf (s.readV x), rfl⟩⟩
  rw [State.next_i, State.setI_i, BitVec.toNat_add, toNat_zext8]

/-! ## What the memory instructions do (R154 to R157) -/

/-- Everything Fx33 can do (R154, R157). -/
theorem exec_ldBVx_eq (x : RegIdx) (s : State) :
    exec (.ldBVx x) s = if s.i.toNat + 2 < memSize
      then .next (s.setBytes s.i.toNat (decimalDigits (s.readV x))).next else .fault .outOfBounds := by
  have hlen := length_decimalDigits (s.readV x)
  rw [exec, execLdBVx]
  split_ifs with h
  · rw [s.storeRange_ok (by omega)]
  · rw [s.storeRange_error (by omega)]
    rfl

/-- Everything Fx55 can do (R155, R157). -/
theorem exec_ldMemVx_eq (x : RegIdx) (s : State) :
    exec (.ldMemVx x) s = if s.i.toNat + x.val < memSize
      then .next (s.setBytes s.i.toNat (s.regsThrough x)).next else .fault .outOfBounds := by
  have hlen := s.length_regsThrough x
  rw [exec, execLdMemVx]
  split_ifs with h
  · rw [s.storeRange_ok (by omega)]
  · rw [s.storeRange_error (by omega)]
    rfl

/-- Everything Fx65 can do (R156, R157). -/
theorem exec_ldVxMem_eq (x : RegIdx) (s : State) :
    exec (.ldVxMem x) s = if s.i.toNat + x.val < memSize
      then .next (s.writeRegs (s.bytesFrom s.i.toNat (x.val + 1))).next else .fault .outOfBounds := by
  rw [exec, execLdVxMem]
  split_ifs with h
  · rw [s.loadRange_ok (.inr h)]
  · rw [s.loadRange_error ⟨x.val.succ_pos, Nat.lt_of_not_le h⟩]
    rfl

/-- An instruction that stores changes memory, moves PC by 2, reports that it is done, and leaves everything else
(R20). -/
theorem State.next_setBytes (s : State) (a : Nat) (bytes : List Byte) :
    (s.setBytes a bytes).next = { s with mem := (s.setBytes a bytes).next.mem, pc := s.pc + 2, report := .done } :=
  congrArg State.next (s.setBytes_eq bytes a)

/-- The register load changes V, moves PC by 2, reports that it is done, and leaves everything else (R20). -/
theorem State.next_writeRegs (s : State) (bytes : List Byte) :
    (s.writeRegs bytes).next = { s with v := (s.writeRegs bytes).next.v, pc := s.pc + 2, report := .done } := by
  simp only [State.next, State.finish, State.writeRegs]

/-! ## The decimal digits (R154) -/

/-- A digit fits a byte, so the stored bytes are the digits' values. -/
theorem toNat_decimalDigits (b : Byte) :
    (decimalDigits b).map BitVec.toNat = [b.toNat / 100, b.toNat / 10 % 10, b.toNat % 10] := by
  have hb : b.toNat < 256 := b.isLt
  have hhundreds : b.toNat / 100 < 2 ^ 8 := by omega
  have htens : b.toNat / 10 % 10 < 2 ^ 8 := by omega
  have hunits : b.toNat % 10 < 2 ^ 8 := by omega
  simp only [decimalDigits, List.map_cons, List.map_nil, BitVec.toNat_ofNat, Nat.mod_eq_of_lt, hhundreds, htens, hunits]

/-- Byte j of a ranged write, as a number. -/
theorem State.toNat_byteAt_setBytes_add (s : State) (a : Nat) {bytes : List Byte} {values : List Nat}
    (hvalues : bytes.map BitVec.toNat = values) (j : Nat) (h : j < values.length) :
    ((s.setBytes a bytes).byteAt (a + j)).toNat = values[j] := by
  subst hvalues
  rw [s.byteAt_setBytes_add a (by simpa using h), List.getElem_map]

/-- Settles O27: in range it is the ranged write of the three digits; past the end the error leaves the state. -/
theorem decimalStoreWritesThreeDigits : Obligations.DecimalStoreWritesThreeDigits := by
  intro x s
  rw [exec_ldBVx_eq]
  refine ⟨fun _ => decodeWord_encode (i := .ldBVx x) rfl, fun hfits => ?_, fun hpast =>
    ⟨if_neg (Nat.not_lt_of_le hpast), s.afterError_eq .outOfBounds⟩⟩
  have hdigit := s.toNat_byteAt_setBytes_add s.i.toNat (toNat_decimalDigits (s.readV x))
  exact ⟨_, if_pos hfits, hdigit 0 (by simp), hdigit 1 (by simp), hdigit 2 (by simp),
    fun a ha => s.byteAt_setBytes_outside ha, s.next_setBytes _ _⟩

/-! ## The registers stored and loaded (R155, R156) -/

/-- Settles O28: in range it is the ranged write of V[0] to V[x]. -/
theorem registerDumpStoresThroughX : Obligations.RegisterDumpStoresThroughX := by
  intro x s
  have hdump := exec_ldMemVx_eq x s
  refine ⟨fun hfits => ?_, fun hpast => hdump.trans (if_neg (Nat.not_lt_of_le hpast))⟩
  have hnext := hdump.trans (if_pos hfits)
  refine ⟨_, hnext, fun k hk => exec_ldMemVx_byteAt hnext hk, fun a ha => ?_, s.next_setBytes _ _⟩
  exact s.byteAt_setBytes_outside (by rw [State.length_regsThrough]; exact ha)

/-- The first n registers take the n bytes from a on, in order; the registers past them keep their values (R156). -/
theorem State.readV_writeRegs_bytesFrom (s : State) (a n : Nat) (k : RegIdx) :
    (s.writeRegs (s.bytesFrom a n)).readV k = if k.val < n then s.byteAt (a + k.val) else s.readV k := by
  rw [State.readV_writeRegs, State.getElem?_bytesFrom]
  split_ifs <;> rfl

/-- Settles O29: in range it is the write of the bytes read into the first x + 1 registers. -/
theorem registerLoadReadsThroughX : Obligations.RegisterLoadReadsThroughX := by
  intro x s
  rw [exec_ldVxMem_eq]
  refine ⟨fun hfits => ⟨_, if_pos hfits, fun k hk => ?_, fun k hk => ?_, s.next_writeRegs _⟩,
    fun hpast => if_neg (Nat.not_lt_of_le hpast)⟩
  · rw [State.readV_next, State.readV_writeRegs_bytesFrom, if_pos (Nat.lt_succ_of_le hk)]
  · rw [State.readV_next, State.readV_writeRegs_bytesFrom, if_neg (Nat.not_lt_of_le hk)]

/-- Settles O30: the load fits because the dump did, and reads at I + k the byte the dump put there. -/
theorem dumpThenLoadRestoresTheRegisters : Obligations.DumpThenLoadRestoresTheRegisters := by
  intro x s t u hdump hmem hcfg hi
  obtain ⟨hfits, -⟩ := exec_ldMemVx_next hdump
  obtain ⟨w, hload, hread, hkept, -⟩ := (registerLoadReadsThroughX x u).1 (by rw [hi]; exact hfits)
  refine ⟨w, hload, fun k hk => ?_, hkept⟩
  calc w.readV k = u.byteAt (u.i.toNat + k.val) := hread k hk
    _ = t.byteAt (s.i.toNat + k.val) := by rw [hi, State.byteAt_congr hmem hcfg]
    _ = s.readV k := exec_ldMemVx_byteAt hdump hk

end Sys2Proof.Machine
end

section
/-! PROOFS. The framebuffer instructions (44_draw.md rules R170 to R173): the pixels of a sprite and the cells they
cover, the framebuffer after them, the collision bit, and the sprite drawn twice. -/

namespace Sys2Proof.Machine

variable {s : State} {x y : RegIdx} {n : Fin 16} {before : Framebuffer} {ps : List Pixel} {p : Pixel} {cx cy : Nat}

/-! ## The clear (R173) -/

/-- Settles O34: the words are closed terms; the meaning is one write of the clear framebuffer. -/
theorem clearScreenClearsEveryCell : Obligations.ClearScreenClearsEveryCell :=
  ⟨rfl, rfl, fun _ => ⟨_, rfl, fbGet_fbClear, rfl⟩⟩

/-! ## The pixels of a sprite (R170, R171) -/

theorem mem_rowPixels {px py : Nat} {b : Byte} :
    p ∈ rowPixels px py b ↔ ∃ bit < 8, p = ⟨px + bit, py, b.getLsbD (7 - bit)⟩ := by
  simp only [rowPixels, List.mem_map, List.mem_range, eq_comm]

/-- The sprite of the n bytes from a on has one pixel for each row below n and each of eight bits, and no other. -/
theorem mem_spritePixels_bytesFrom {px py a n : Nat} :
    p ∈ spritePixels px py (s.bytesFrom a n) ↔
      ∃ row < n, ∃ bit < 8, p = ⟨px + bit, py + row, (s.byteAt (a + row)).getLsbD (7 - bit)⟩ := by
  induction n generalizing py a with
  | zero => simp [State.bytesFrom, spritePixels]
  | succ n ih =>
    simp only [State.bytesFrom, spritePixels, List.mem_append, mem_rowPixels, ih, Nat.exists_lt_succ_left (n := n),
      Nat.add_zero, Nat.add_right_comm, ← Nat.add_assoc]

/-- The pixel lands on the cell, after the reduction modulo the framebuffer's size (R171). -/
abbrev Pixel.Covers (p : Pixel) (cx cy : Nat) : Prop := p.col % 64 = cx % 64 ∧ p.row % 32 = cy % 32

/-- Pixels that land on one cell carry one bit. -/
def AgreeOnCells (ps : List Pixel) : Prop := ∀ p ∈ ps, ∀ q ∈ ps, q.Covers p.col p.row → q.lit = p.lit

/-- A sprite of at most 15 rows of 8 bits does not wrap onto itself: two of its pixels on one cell are one pixel. -/
theorem agreeOnCells_spritePixels (s : State) (px py a : Nat) (n : Fin 16) :
    AgreeOnCells (spritePixels px py (s.bytesFrom a n.val)) := by
  intro p hp q hq hcovers
  obtain ⟨row, hrow, bit, hbit, rfl⟩ := mem_spritePixels_bytesFrom.mp hp
  obtain ⟨row', hrow', bit', hbit', rfl⟩ := mem_spritePixels_bytesFrom.mp hq
  obtain ⟨hcol, hline⟩ : (px + bit') % 64 = (px + bit) % 64 ∧ (py + row') % 32 = (py + row) % 32 := hcovers
  obtain rfl : bit' = bit := by omega
  obtain rfl : row' = row := by omega
  rfl

/-! ## The framebuffer after the pixels, and the collision bit (R171) -/

/-- One pixel sets the cell it lands on, and no other. -/
theorem fbGet_fbSet_pixel (fb : Framebuffer) (p : Pixel) (b : Bool) :
    fbGet (fbSet fb p.col p.row b) cx cy = if p.Covers cx cy then b else fbGet fb cx cy := by
  rw [fbGet_fbSet]
  exact if_congr (and_congr eq_comm eq_comm) rfl rfl

/-- A cell that no pixel lands on keeps its value. -/
theorem fbGet_drawPixels_outside (fb : Framebuffer) (h : ∀ p ∈ ps, ¬ p.Covers cx cy) :
    fbGet (drawPixels before ps fb) cx cy = fbGet fb cx cy := by
  induction ps generalizing fb with
  | nil => rfl
  | cons q ps ih =>
    obtain ⟨hq, hps⟩ := List.forall_mem_cons.mp h
    rw [drawPixels, ih _ hps, fbGet_fbSet_pixel, if_neg hq]

/-- Coordinates of one cell read one value (R60). -/
theorem fbGet_eq_of_covers (fb : Framebuffer) (h : p.Covers cx cy) : fbGet fb p.col p.row = fbGet fb cx cy := by
  rw [← fbGet_mod, h.1, h.2, fbGet_mod]

/-- A cell whose pixels all carry the bit b ends at its value before the draw XOR b when a pixel still to come sets it
so, or it is so already. -/
theorem fbGet_drawPixels_of_bit {b : Bool} (fb : Framebuffer) (hbit : ∀ q ∈ ps, q.Covers cx cy → q.lit = b)
    (h : (∃ q ∈ ps, q.Covers cx cy) ∨ fbGet fb cx cy = (fbGet before cx cy ^^ b)) :
    fbGet (drawPixels before ps fb) cx cy = (fbGet before cx cy ^^ b) := by
  induction ps generalizing fb with
  | nil => exact h.resolve_left (by simp)
  | cons q ps ih =>
    obtain ⟨hq, hps⟩ := List.forall_mem_cons.mp hbit
    refine ih _ hps ?_
    rw [fbGet_fbSet_pixel]
    by_cases hcovers : q.Covers cx cy
    · rw [if_pos hcovers, fbGet_eq_of_covers before hcovers, hq hcovers]
      exact .inr rfl
    · rw [if_neg hcovers]
      simpa [hcovers] using h

/-- The cell under a pixel becomes its value before the draw XOR the pixel's bit (R171). -/
theorem fbGet_drawPixels_of_mem (fb : Framebuffer) (hagree : AgreeOnCells ps) (hp : p ∈ ps) :
    fbGet (drawPixels before ps fb) p.col p.row = (fbGet before p.col p.row ^^ p.lit) :=
  fbGet_drawPixels_of_bit fb (hagree p hp) (.inl ⟨p, hp, rfl, rfl⟩)

theorem collides_eq_true_iff :
    collides before ps = true ↔ ∃ p ∈ ps, p.lit = true ∧ fbGet before p.col p.row = true := by
  simp only [collides, List.any_eq_true, Bool.and_eq_true]

/-! ## What DRW does (R171, R172) -/

/-- The pixels DRW Vx, Vy, n draws: the n bytes at I, at the coordinates in V[x] and V[y]. -/
def State.drwPixels (s : State) (x y : RegIdx) (n : Fin 16) : List Pixel :=
  spritePixels (s.readV x).toNat (s.readV y).toNat (s.bytesFrom s.i.toNat n.val)

/-- The pixel of one row and one bit of the sprite. -/
def State.drwPixel (s : State) (x y : RegIdx) (row bit : Nat) : Pixel :=
  ⟨(s.readV x).toNat + bit, (s.readV y).toNat + row, (s.byteAt (s.i.toNat + row)).getLsbD (7 - bit)⟩

theorem State.mem_drwPixels : p ∈ s.drwPixels x y n ↔ ∃ row < n.val, ∃ bit < 8, p = s.drwPixel x y row bit :=
  mem_spritePixels_bytesFrom

theorem State.drwPixel_mem {row bit : Nat} (hrow : row < n.val) (hbit : bit < 8) :
    s.drwPixel x y row bit ∈ s.drwPixels x y n :=
  State.mem_drwPixels.mpr ⟨row, hrow, bit, hbit, rfl⟩

/-- The state DRW leaves: the framebuffer after the pixels, and in VF the collision bit. -/
def State.drawn (s : State) (x y : RegIdx) (n : Fin 16) : State :=
  ((s.setFb (drawPixels s.fb (s.drwPixels x y n) s.fb)).writeV flagReg
    (flagByte (collides s.fb (s.drwPixels x y n)))).next

/-- Everything DRW can do (R171, R172). -/
theorem exec_drw_eq (x y : RegIdx) (n : Fin 16) (s : State) :
    exec (.drw x y n) s
      = if n.val = 0 ∨ s.i.toNat + n.val ≤ memSize then .next (s.drawn x y n) else .fault .outOfBounds := by
  rw [exec, execDrw, State.loadRange_eq]
  split_ifs <;> rfl

/-- The range of n bytes exists when its last byte does (R50, R157). -/
theorem lastByte_lt_iff {a n : Nat} : (n = 0 ∨ a + n - 1 < 4096) ↔ (n = 0 ∨ a + n ≤ memSize) := by
  have hsize : memSize = 4096 := rfl
  omega

/-- VF after DRW is the collision bit. -/
theorem State.readV_drawn_flagReg : (s.drawn x y n).readV flagReg = flagByte (collides s.fb (s.drwPixels x y n)) :=
  State.readV_writeV_self _ _ _

/-- The collision bit, row by row and bit by bit of the sprite. -/
theorem State.collides_drwPixels_iff : collides s.fb (s.drwPixels x y n) = true ↔
    ∃ row bit, row < n.val ∧ bit < 8 ∧ (s.byteAt (s.i.toNat + row)).getLsbD (7 - bit) = true ∧
      fbGet s.fb ((s.readV x).toNat + bit) ((s.readV y).toNat + row) = true := by
  rw [collides_eq_true_iff]
  constructor
  · rintro ⟨p, hp, hlit, hcell⟩
    obtain ⟨row, hrow, bit, hbit, rfl⟩ := State.mem_drwPixels.mp hp
    exact ⟨row, bit, hrow, hbit, hlit, hcell⟩
  · rintro ⟨row, bit, hrow, hbit, hlit, hcell⟩
    exact ⟨s.drwPixel x y row bit, State.drwPixel_mem hrow hbit, hlit, hcell⟩

/-- Settles O32: a cell is under a pixel of the sprite, which fixes its new value, or under none. -/
theorem drawXorsTheSpriteOntoTheGrid : Obligations.DrawXorsTheSpriteOntoTheGrid := by
  intro x y n s
  refine ⟨fun _ => ?word, fun hfits => ?drawn, fun hpast => ⟨?error, s.afterError_eq .outOfBounds⟩⟩
  case word =>
    rw [append_nibbles_eq_encodeXyn]
    exact decodeWord_encode (i := .drw x y n) rfl
  case error =>
    refine (exec_drw_eq x y n s).trans (if_neg fun hexists => ?_)
    have hlast := lastByte_lt_iff.mpr hexists
    omega
  have hnext := (exec_drw_eq x y n s).trans (if_pos (lastByte_lt_iff.mp hfits))
  refine ⟨s.drawn x y n, hnext, fun row bit hrow hbit => ?under,
    fun cx cy houtside => ?outside, fun hhit => ?hit, fun hmiss => ?miss, fun r => State.readV_writeV_of_ne, rfl⟩
  case under =>
    exact fbGet_drawPixels_of_mem s.fb (agreeOnCells_spritePixels s _ _ _ n) (State.drwPixel_mem hrow hbit)
  case outside =>
    refine fbGet_drawPixels_outside s.fb fun p hp => ?_
    obtain ⟨row, hrow, bit, hbit, rfl⟩ := State.mem_drwPixels.mp hp
    exact houtside row bit hrow hbit
  case hit => exact State.readV_drawn_flagReg.trans (congrArg flagByte (State.collides_drwPixels_iff.mpr hhit))
  case miss =>
    rw [← State.collides_drwPixels_iff, Bool.not_eq_true] at hmiss
    exact State.readV_drawn_flagReg.trans (congrArg flagByte hmiss)

/-! ## The sprite drawn twice (R172(e)) -/

/-- Framebuffers that read alike at every cell are one framebuffer. -/
theorem framebuffer_ext {fb fb' : Framebuffer} (h : ∀ cx cy, fbGet fb cx cy = fbGet fb' cx cy) : fb = fb' := by
  refine Vector.ext fun cy hcy => Vector.ext fun cx hcx => ?_
  simpa only [fbGet, Nat.mod_eq_of_lt hcx, Nat.mod_eq_of_lt hcy] using h cx cy

/-- Settles O33: by O32 both draws XOR the same bit onto a cell under the sprite and leave any other cell alone. -/
theorem drawingTwiceRestoresTheFramebuffer : Obligations.DrawingTwiceRestoresTheFramebuffer := by
  intro x y n s t u h hfb hx hy hi hbytes
  have hfits := lastByte_lt_iff.mpr (exec_drw_next h).1
  obtain ⟨t', ht', hunder, houtside, -, hmiss, -⟩ := (drawXorsTheSpriteOntoTheGrid x y n s).2.1 hfits
  obtain rfl := eq_of_next_eq_next (h.symm.trans ht')
  obtain ⟨w, hw, hunder', houtside', hhit', -⟩ := (drawXorsTheSpriteOntoTheGrid x y n u).2.1 (hi ▸ hfits)
  simp only [hfb, hx, hy, hi] at hunder' houtside' hhit'
  refine ⟨w, hw, framebuffer_ext fun cx cy => ?restored,
    fun ⟨row, bit, hrow, hbit, hlit⟩ hdark => ⟨hmiss ?nothingHit, hhit' ?pixelHit⟩⟩
  case restored =>
    by_cases hcell : ∃ row < n.val, ∃ bit < 8, (s.drwPixel x y row bit).Covers cx cy
    · obtain ⟨row, hrow, bit, hbit, hcovers⟩ := hcell
      rw [← fbGet_eq_of_covers w.fb hcovers, ← fbGet_eq_of_covers s.fb hcovers]
      refine (hunder' row bit hrow hbit).trans ?_
      rw [hunder row bit hrow hbit, hbytes row hrow, Bool.xor_assoc, Bool.xor_self, Bool.xor_false]
      rfl
    · have hnone (row bit) (hrow : row < n.val) (hbit : bit < 8) : ¬ (s.drwPixel x y row bit).Covers cx cy :=
        fun hcovers => hcell ⟨row, hrow, bit, hbit, hcovers⟩
      exact (houtside' cx cy hnone).trans (houtside cx cy hnone)
  case nothingHit =>
    rintro ⟨row, bit, hrow, hbit, hlit, hcell⟩
    exact absurd hcell (by simp [hdark row bit hrow hbit hlit])
  case pixelHit =>
    refine ⟨row, bit, hrow, hbit, by rw [hbytes row hrow, hlit], ?_⟩
    rw [hunder row bit hrow hbit, hdark row bit hrow hbit hlit, hlit, Bool.false_xor]

end Sys2Proof.Machine
end

section
/-! PROOFS. Keys, timers and the random byte (45_input_timer_random.md rules R180 to R188): the two key skips and the
two outcomes of Fx0A, then the four instructions that move a timer or the random byte. -/

namespace Sys2Proof.Machine

variable {s : State}

/-! ## The key skips (R180 to R182) -/

theorem keyOfByte_of_toNat_eq {b : Byte} {k : Key} (h : b.toNat = k.val) : keyOfByte b = some k := by
  have hlt : b.toNat < 16 := h ▸ k.isLt
  rw [keyOfByte, dif_pos hlt]
  exact congrArg some (Fin.ext h)

theorem keyOfByte_of_gt {b : Byte} (h : 15 < b.toNat) : keyOfByte b = none := dif_neg (by omega)

theorem exec_skp_of_key {k : Key} (x : RegIdx) (h : keyOfByte (s.readV x) = some k) :
    exec (.skp x) s = .next (s.skipIf (s.keyPressed k)) := by
  simp only [exec, execSkp, h]

theorem exec_skp_of_no_key (x : RegIdx) (h : keyOfByte (s.readV x) = none) :
    exec (.skp x) s = .fault .outOfBounds := by
  simp only [exec, execSkp, h, raise]

theorem exec_sknp_of_key {k : Key} (x : RegIdx) (h : keyOfByte (s.readV x) = some k) :
    exec (.sknp x) s = .next (s.skipIf (!s.keyPressed k)) := by
  simp only [exec, execSknp, h]

theorem exec_sknp_of_no_key (x : RegIdx) (h : keyOfByte (s.readV x) = none) :
    exec (.sknp x) s = .fault .outOfBounds := by
  simp only [exec, execSknp, h, raise]

/-- A skip under the complement of a test has the two movements of PC the other way round (R181). -/
theorem State.skipIf_not (s : State) (test : Bool) :
    s.skipIf (!test) = { s with pc := (if test = true then s.pc + 2 else s.pc + 4), report := .done } := by
  rw [s.skipIf_of_iff (p := ¬ test = true) (by simp), ite_not]

/-- Settles O35: a register value below 16 names the key itself, whose entry in the latch is the test; above 15 it names
none. -/
theorem keySkipsTestTheLatch : Obligations.KeySkipsTestTheLatch := by
  intro x s
  refine ⟨fun k hk => ?_, fun hgt => ?_⟩
  · have hkey : keyOfByte (s.readV x) = some k := keyOfByte_of_toNat_eq hk
    exact ⟨(exec_skp_of_key x hkey).trans (congrArg Host.Outcome.next (s.skipIf_of_iff Iff.rfl)),
      (exec_sknp_of_key x hkey).trans (congrArg Host.Outcome.next (s.skipIf_not _))⟩
  · have hnone : keyOfByte (s.readV x) = none := keyOfByte_of_gt hgt
    exact ⟨exec_skp_of_no_key x hnone, exec_sknp_of_no_key x hnone⟩

/-! ## The wait for a key (R183, R184) -/

/-- Fx0A with no key selected waits: PC stays where it is (R183). -/
theorem exec_ldVxK_of_no_selectedKey (x : RegIdx) (h : s.selectedKey = none) :
    exec (.ldVxK x) s = .next s.wait := by
  simp only [exec, execLdVxK, h]

/-- Settles O36: either a key is selected, and it is a pressed one, or none is and every key is released. -/
theorem waitForKeyCompletesOnAPressedKey : Obligations.WaitForKeyCompletesOnAPressedKey := by
  intro x s
  obtain ⟨k, hselected, hpressed⟩ | ⟨hnone, hreleased⟩ := s.selectedKey_cases
  · exact ⟨fun _ => ⟨_, k, exec_ldVxK_of_selectedKey x hselected, hpressed, by simp,
        fun htable => s.selectedKey_lowest htable hselected, fun _ => State.readV_writeV_of_ne, rfl⟩,
      fun hreleased => absurd hpressed (by simp [hreleased k])⟩
  · exact ⟨fun ⟨k, hpressed⟩ => absurd hpressed (by simp [hreleased k]),
      fun _ => exec_ldVxK_of_no_selectedKey x hnone⟩

/-! ## The timers and the random byte (R185 to R188) -/

/-- Settles O37: the words are encodings, which the decoder undoes; each meaning is one write. -/
theorem timerMoves : Obligations.TimerMoves := fun x s =>
  ⟨fun _ => ⟨decodeWord_encode (i := .ldVxDt x) rfl, decodeWord_encode (i := .ldDtVx x) rfl,
      decodeWord_encode (i := .ldStVx x) rfl⟩,
    ⟨_, rfl, s.readV_writeV_self x _, fun _ => State.readV_writeV_of_ne, rfl⟩, rfl, rfl⟩

/-- Settles O38: the meaning is one register write, and AND acts bit by bit. -/
theorem randomByteIsMasked : Obligations.RandomByteIsMasked := fun _ _ _ =>
  ⟨_, rfl, fun k => by rw [State.readV_next, State.readV_writeV_self, BitVec.getLsbD_and],
    fun _ => State.readV_writeV_of_ne, rfl⟩

end Sys2Proof.Machine
end

section
/-! PROOFS. Errors, the cycle and the timer step (60_exceptions.md rules R200 to R220): which error an instruction and a
cycle end in, what an error depends on, the fetch and the decode, and the ticks. -/

namespace Sys2Proof.Machine

variable {i : Instr} {s s₁ t : State} {e : Fault} {rest : List HostAction}

/-! ## The error an instruction ends in (R204) -/

/-- The answer is the error that is expected, or a next state when none is. -/
def AnswersAs (r : Result) : Option Fault → Prop
  | some e => r = .fault e
  | none => ∃ t, r = .next t

theorem AnswersAs.fault_iff {r : Result} {expected : Option Fault} (h : AnswersAs r expected) :
    r = .fault e ↔ expected = some e := by
  cases expected with
  | some e' =>
    obtain rfl : r = .fault e' := h
    simp
  | none =>
    obtain ⟨t, rfl⟩ := h
    simp

theorem AnswersAs.next_iff {r : Result} {expected : Option Fault} (h : AnswersAs r expected) :
    (∃ t, r = .next t) ↔ expected = none := by
  cases expected with
  | some e =>
    obtain rfl : r = .fault e := h
    simp
  | none => exact iff_of_true h rfl

/-- An answer that is a next state on a condition, and the error expected on the opposite one. -/
theorem answersAs_ite {completes errs : Prop} [Decidable completes] [Decidable errs] (h : completes ↔ ¬ errs) :
    AnswersAs (if completes then .next t else .fault e) (if errs then some e else none) := by
  by_cases herr : errs
  · rw [if_pos herr, if_neg (fun hc => h.mp hc herr)]
    exact rfl
  · rw [if_neg herr, if_pos (h.mpr herr)]
    exact ⟨t, rfl⟩

/-- Every instruction answers as the table of errors says (R204): eight have a row there, and the others complete from
every state or, Fx0A, wait. -/
theorem exec_answersAs_errorOf (i : Instr) (s : State) : AnswersAs (exec i s) (errorOf i s) := by
  cases i with
  | drw x y n =>
    rw [exec_drw_eq]
    exact answersAs_ite (by omega)
  | ldBVx x =>
    rw [exec_ldBVx_eq]
    exact answersAs_ite Nat.not_le.symm
  | ldMemVx x =>
    rw [exec_ldMemVx_eq]
    exact answersAs_ite Nat.not_le.symm
  | ldVxMem x =>
    rw [exec_ldVxMem_eq]
    exact answersAs_ite Nat.not_le.symm
  | skp x =>
    obtain ⟨hgt, hnone⟩ | ⟨hlt, hkey⟩ := keyOfByte_cases (s.readV x)
    · rw [exec_skp_of_no_key x hnone, errorOf, if_pos hgt, AnswersAs]
    · rw [exec_skp_of_key x hkey, errorOf, if_neg (by omega)]
      exact ⟨_, rfl⟩
  | sknp x =>
    obtain ⟨hgt, hnone⟩ | ⟨hlt, hkey⟩ := keyOfByte_cases (s.readV x)
    · rw [exec_sknp_of_no_key x hnone, errorOf, if_pos hgt, AnswersAs]
    · rw [exec_sknp_of_key x hkey, errorOf, if_neg (by omega)]
      exact ⟨_, rfl⟩
  | call nnn =>
    cases hfull : s.stackFull
    · rw [exec_call_of_not_full nnn hfull, errorOf, if_neg (by simp [hfull])]
      exact ⟨_, rfl⟩
    · rw [exec_call_of_full nnn hfull, errorOf, if_pos hfull, AnswersAs]
  | ret =>
    by_cases hreset : s.sp = s.cfg.spReset
    · rw [exec_ret_of_empty (beq_iff_eq.mpr hreset), errorOf, if_pos hreset, AnswersAs]
    have hempty : s.stackEmpty = false := beq_eq_false_iff_ne.mpr hreset
    rw [errorOf, if_neg hreset]
    by_cases habove : stackSlots ≤ s.sp.toNat
    · rw [exec_ret_of_no_top hempty (Vector.getElem?_eq_none habove), if_pos habove, AnswersAs]
    · rw [exec_ret_of_top hempty (Vector.getElem?_eq_getElem (Nat.lt_of_not_le habove)), if_neg habove]
      exact ⟨_, rfl⟩
  | ldVxK x =>
    obtain ⟨k, hselected, -⟩ | ⟨hnone, -⟩ := s.selectedKey_cases
    · exact ⟨_, exec_ldVxK_of_selectedKey x hselected⟩
    · exact ⟨_, exec_ldVxK_of_no_selectedKey x hnone⟩
  | _ => exact ⟨_, rfl⟩

theorem exec_fault_iff : exec i s = .fault e ↔ errorOf i s = some e :=
  (exec_answersAs_errorOf i s).fault_iff

theorem exec_next_iff : (∃ t, exec i s = .next t) ↔ errorOf i s = none :=
  (exec_answersAs_errorOf i s).next_iff

/-- Settles O10: both halves say that the instruction answers as the table of errors says. -/
theorem everyInstructionErrsExactlyAsTabled : Obligations.EveryInstructionErrsExactlyAsTabled := fun _ _ =>
  ⟨fun _ => exec_fault_iff, exec_next_iff⟩

/-! ## The error a cycle ends in (R201 to R203) -/

/-- The error of a cycle: that of the fetch and decode, or that of the instruction they give. -/
def State.cycleError (s : State) : Option Fault :=
  match s.fetchInstr with
  | .ok i => errorOf i s
  | .error e => some e

theorem runCycle_of_ok (h : s.fetchInstr = .ok i) : runCycle s = exec i s := by
  rw [runCycle, h]

theorem runCycle_of_error (h : s.fetchInstr = .error e) : runCycle s = .fault e := by
  simp only [runCycle, h, raise]

theorem runCycle_fault_iff : runCycle s = .fault e ↔ s.cycleError = some e := by
  cases h : s.fetchInstr with
  | ok i => rw [runCycle_of_ok h, State.cycleError, h, exec_fault_iff]
  | error e' => simp [runCycle_of_error h, State.cycleError, h]

/-! ## What an error depends on (R210) -/

/-- The state with the fields that no error depends on cleared: the inputs, the timers, the report and what the host
does next. -/
def State.errorCauses (s : State) : State :=
  { s with latch := Latch.released, rnd := 0, report := .done, schedule := [], freeCount := 0, dt := 0, st := 0 }

theorem State.cycleError_errorCauses (s : State) : s.errorCauses.cycleError = s.cycleError := by
  have hfetch : s.errorCauses.fetchInstr = s.fetchInstr := State.fetchInstr_congr rfl rfl rfl
  have htable (i : Instr) : errorOf i s.errorCauses = errorOf i s := by cases i <;> rfl
  simp only [State.cycleError, hfetch, htable]

theorem State.errorCauses_of_cycleStart (h : s.cycleStart = some s₁) : s₁.errorCauses = s.errorCauses := by
  rw [State.cycleStart_eq h]
  rfl

/-- Presenting the inputs of a cycle does not decide its error. -/
theorem step_fault_iff_of_cycleStart (h : s.cycleStart = some s₁) : step s = .fault e ↔ s.cycleError = some e := by
  rw [step_of_cycleStart h, runCycle_fault_iff, ← s₁.cycleError_errorCauses, State.errorCauses_of_cycleStart h,
    s.cycleError_errorCauses]

/-- Settles O12: the two states differ only in fields that no error depends on. -/
theorem errorRepeatsWhateverTheInputs : Obligations.ErrorRepeatsWhateverTheInputs := by
  intro s u e hcycle herror hu hcycle'
  obtain ⟨s₁, hs₁⟩ := Option.isSome_iff_exists.mp hcycle
  obtain ⟨u₁, hu₁⟩ := Option.isSome_iff_exists.mp hcycle'
  have hcauses : u.errorCauses = s.errorCauses := by
    rw [hu]
    rfl
  rw [step_fault_iff_of_cycleStart hs₁] at herror
  rw [step_fault_iff_of_cycleStart hu₁]
  calc u.cycleError = u.errorCauses.cycleError := u.cycleError_errorCauses.symm
    _ = s.cycleError := by rw [hcauses, s.cycleError_errorCauses]
    _ = some e := herror

/-- Settles O13: a host that goes on after an error goes on from afterError, which keeps everything else. -/
theorem errorLeavesTheStateAsItWas : Obligations.ErrorLeavesTheStateAsItWas := by
  intro s e h
  have hafter : stepThroughErrors s = s.afterError e := by rw [stepThroughErrors, h]
  rw [hafter]
  exact s.afterError_eq e

/-! ## The fetch and the decode (R202, R203, R208) -/

/-- The word at PC (R202). -/
abbrev State.wordAtPc (s : State) : Word := wordOfBytes (s.byteAt s.pc.toNat) (s.byteAt (s.pc.toNat + 1))

theorem State.fetchInstr_of_outside (h : memSize < s.pc.toNat + 2) : s.fetchInstr = .error .outOfBounds := by
  rw [State.fetchInstr, State.memRead16_eq, if_neg (Nat.not_le_of_lt h)]

theorem State.fetchInstr_of_decode_ok (hin : s.pc.toNat + 2 ≤ memSize)
    (h : decodeWord s.cfg.clsEnabled s.wordAtPc = .ok i) : s.fetchInstr = .ok i := by
  simp only [State.fetchInstr, State.memRead16_eq, if_pos hin, h]

theorem State.fetchInstr_of_decode_error {d : DecodeError} (hin : s.pc.toNat + 2 ≤ memSize)
    (h : decodeWord s.cfg.clsEnabled s.wordAtPc = .error d) : s.fetchInstr = .error .unknownInstruction := by
  simp only [State.fetchInstr, State.memRead16_eq, if_pos hin, h]

/-- The fetch and decode fail in the two ways of R208 only. -/
theorem State.fetchInstr_error_cases (h : s.fetchInstr = .error e) : e = .outOfBounds ∨ e = .unknownInstruction := by
  by_cases hin : s.pc.toNat + 2 ≤ memSize
  · cases hd : decodeWord s.cfg.clsEnabled s.wordAtPc with
    | ok i => simp [State.fetchInstr_of_decode_ok hin hd] at h
    | error d => exact .inr (Except.error.inj (h.symm.trans (State.fetchInstr_of_decode_error hin hd)))
  · exact .inl (Except.error.inj (h.symm.trans (State.fetchInstr_of_outside (Nat.lt_of_not_le hin))))

theorem SameCore.fetchInstr (c : SameCore s t) : t.fetchInstr = s.fetchInstr :=
  State.fetchInstr_congr c.mem c.cfg c.pc

/-- A cycle runs the instruction that the state before it fetches. -/
theorem step_of_fetchInstr_ok (hstart : s.cycleStart = some s₁) (h : s.fetchInstr = .ok i) : step s = exec i s₁ :=
  (step_of_cycleStart hstart).trans
    (runCycle_of_ok ((State.sameCore_of_cycleStart hstart).fetchInstr.trans h))

/-- A cycle whose fetch or decode fails ends in that error. -/
theorem step_of_fetchInstr_error (hstart : s.cycleStart = some s₁) (h : s.fetchInstr = .error e) :
    step s = .fault e :=
  (step_of_cycleStart hstart).trans
    (runCycle_of_error ((State.sameCore_of_cycleStart hstart).fetchInstr.trans h))

/-- A listed cycle presents its own inputs (R201). -/
theorem State.cycleStart_of_listed {latch : Latch} {rnd : Byte} (h : s.schedule = .executeCycle latch rnd :: rest) :
    s.cycleStart = some ((s.takeAction rest).present latch rnd) := by
  rw [State.cycleStart, h]

/-- Settles O8: the fetch reads fields that presenting the inputs does not touch. -/
theorem stepRunsTheDecodedInstruction : Obligations.StepRunsTheDecodedInstruction := by
  intro s s₁ i hstart hin hdecode
  refine ⟨step_of_fetchInstr_ok hstart (State.fetchInstr_of_decode_ok hin hdecode), State.cycleStart_eq hstart,
    fun latch rnd rest hlisted => ?_⟩
  obtain rfl := Option.some.inj ((State.cycleStart_of_listed hlisted).symm.trans hstart)
  exact ⟨rfl, rfl⟩

/-- Settles O9: at 4095 the second byte does not exist; below, a word of no row is unknown by O3. -/
theorem fetchAndDecodeErrorsComeFirst : Obligations.FetchAndDecodeErrorsComeFirst := by
  intro s s₁ hstart
  refine ⟨fun hpc => ?_, fun hpc hnoRow => ?_⟩
  · exact step_of_fetchInstr_error hstart (State.fetchInstr_of_outside (Nat.add_le_add_right hpc 2))
  · obtain ⟨-, -, -, hunknown⟩ := opcodeMapDecidesEveryWord s.cfg.clsEnabled s.wordAtPc
    exact step_of_fetchInstr_error hstart (State.fetchInstr_of_decode_error (Nat.succ_le_succ hpc) (hunknown hnoRow))

/-! ## The timer step (R214, R215) -/

theorem toNat_countDown (b : Byte) : (countDown b).toNat = b.toNat - 1 := by
  unfold countDown
  split_ifs with h
  · simp [h]
  · bv_omega

/-- A step whose action is a tick is that tick. -/
theorem step_of_tick (h : s.schedule = .tickTimers :: rest) :
    step s = .next { s with dt := countDown s.dt, st := countDown s.st, schedule := rest, report := .done } := by
  simp only [step, h, tickTimers, State.takeAction]

/-- Settles O39: a tick counts both timers down. -/
theorem tickLowersEachTimer : Obligations.TickLowersEachTimer := fun s _ h =>
  ⟨_, step_of_tick h, toNat_countDown s.dt, toNat_countDown s.st, rfl⟩

theorem run_succ_of_step (k : Nat) (h : step s = .next t) :
    Host.Core.run Sys2Proof.core (k + 1) s = Host.Core.run Sys2Proof.core k t := by
  simp only [Host.Core.run, show Sys2Proof.core.step s = .next t from h]

/-- Settles O40: by induction on the ticks, each one O39. -/
theorem timersAfterManyTicks : Obligations.TimersAfterManyTicks := by
  intro k
  induction k with
  | zero =>
    rintro s rest rfl
    exact ⟨s, rfl, rfl, rfl, rfl⟩
  | succ k ih =>
    intro s rest h
    obtain ⟨u, hstep, hdt, hst, hu⟩ := tickLowersEachTimer s _ h
    obtain ⟨t, hrun, hdt', hst', ht⟩ := ih u rest (congrArg State.schedule hu)
    refine ⟨t, (run_succ_of_step k hstep).trans hrun, by omega, by omega, ?_⟩
    rw [ht, hu]

/-! ## The error that is never raised (R220) -/

/-- The next action is a cycle, a tick or a load (R200, R219). -/
theorem State.nextAction_cases (s : State) :
    (∃ s₁, s.cycleStart = some s₁) ∨ (∃ rest, s.schedule = .tickTimers :: rest) ∨
    ∃ bytes rest, s.schedule = .load bytes :: rest := by
  cases h : s.schedule with
  | nil => exact .inl ⟨_, by rw [State.cycleStart, h]⟩
  | cons action rest =>
    cases action with
    | executeCycle latch rnd => exact .inl ⟨_, State.cycleStart_of_listed h⟩
    | tickTimers => exact .inr (.inl ⟨rest, rfl⟩)
    | load bytes => exact .inr (.inr ⟨bytes, rest, rfl⟩)

theorem errorOf_ne_inputUnavailable (i : Instr) (s : State) : errorOf i s ≠ some .inputUnavailable := by
  cases i with
  | ret =>
    rw [errorOf]
    split_ifs <;> decide
  | drw | ldBVx | ldMemVx | ldVxMem | skp | sknp | call => simp [errorOf]
  | _ => exact nofun

theorem State.cycleError_ne_inputUnavailable (s : State) : s.cycleError ≠ some .inputUnavailable := by
  cases h : s.fetchInstr with
  | ok i => simpa only [State.cycleError, h] using errorOf_ne_inputUnavailable i s
  | error e => rcases State.fetchInstr_error_cases h with rfl | rfl <;> simp [State.cycleError, h]

/-- Settles O11: a cycle by its errors; a tick has none, and a load only CapacityExceeded. -/
theorem noStepRaisesInputUnavailable : Obligations.NoStepRaisesInputUnavailable := by
  intro s
  obtain ⟨s₁, hstart⟩ | ⟨rest, htick⟩ | ⟨bytes, rest, hload⟩ := s.nextAction_cases
  · rw [Ne, step_fault_iff_of_cycleStart hstart]
    exact s.cycleError_ne_inputUnavailable
  · simp [step_of_tick htick]
  · rw [step_of_load hload]
    by_cases hfits : bytes.length ≤ programCapacity
    · simp [loadProgram_of_le _ hfits]
    · simp [loadProgram_of_gt _ (Nat.lt_of_not_le hfits)]

end Sys2Proof.Machine
end

section
/-! PROOFS. The first cycle after reset (70_reset_and_hazards.md rule R232): of a loaded program, its first instruction;
with nothing loaded, the word 0x0000 that construction leaves at 0x200. -/

namespace Sys2Proof.Machine

variable {s : State} {i : Instr}

/-- A state fetches the instruction whose word stands at PC (R202, R203). -/
theorem State.fetchInstr_of_encode (hexists : i.wellFormed s.cfg.clsEnabled = true) (hin : s.pc.toNat + 2 ≤ memSize)
    (hword : s.wordAtPc = encode i) : s.fetchInstr = .ok i :=
  State.fetchInstr_of_decode_ok hin (hword ▸ decodeWord_encode hexists)

/-- Settles O44: by O41 the load puts the word's two bytes at 0x200, where PC stands after construction. -/
theorem loadedProgramRunsFromItsFirstWord : Obligations.LoadedProgramRunsFromItsFirstWord := by
  intro c i tail latch rnd rest hexists hlength
  obtain ⟨hfits, -⟩ := loadCopiesTheProgram
    { State.construct c with
      schedule := .load (bytesOfWord (encode i) ++ tail) :: .executeCycle latch rnd :: rest } _ _ rfl
  obtain ⟨t, hload, hbytes, -, ht⟩ := hfits (List.length_append.trans_le (Nat.add_le_add_left hlength 2))
  have hpc : t.pc = 0x200 := congrArg State.pc ht
  have hcfg : t.cfg = c := congrArg State.cfg ht
  have hschedule : t.schedule = .executeCycle latch rnd :: rest := congrArg State.schedule ht
  have hword : t.wordAtPc = encode i := by
    have hhigh : t.byteAt 0x200 = (encode i).extractLsb' 8 8 := hbytes 0 (by simp [bytesOfWord])
    have hlow : t.byteAt 0x201 = (encode i).extractLsb' 0 8 := hbytes 1 (by simp [bytesOfWord])
    rw [State.wordAtPc, hpc]
    exact (congrArg₂ wordOfBytes hhigh hlow).trans (wordOfBytes_bytesOfWord (encode i))
  have hfetch : t.fetchInstr = .ok i :=
    State.fetchInstr_of_encode (hcfg ▸ hexists) (by rw [hpc]; decide) hword
  exact ⟨t, hload, step_of_fetchInstr_ok (State.cycleStart_of_listed hschedule) hfetch⟩

/-- Above 0x1FF construction leaves zeros: inside the limits the glyph table ends below 0x200 (R41, decision D16). -/
theorem constructedByte_of_programBase_le {c : Config} {a : Nat} (hc : c.wf = true) (ha : programBase ≤ a) :
    constructedByte c a = 0 := by
  obtain ⟨htable, -⟩ := Config.glyphLimits_of_wf hc
  exact constructedByte_outside c (.inr (htable.trans ha))

/-- The word 0x0000 is no instruction (R85, decision D6). -/
theorem decodeWord_zero (clsEnabled : Bool) : decodeWord clsEnabled 0 = .error (.unknownInstruction 0) := by
  cases clsEnabled <;> rfl

/-- PC stands at 0x200 after construction, and the word there is 0x0000 (R232). -/
theorem State.fetchInstr_construct {c : Config} (hc : c.wf = true) :
    (State.construct c).fetchInstr = .error .unknownInstruction := by
  have hin : (State.construct c).pc.toNat + 2 ≤ memSize := show 0x200 + 2 ≤ 4096 by decide
  have hword : (State.construct c).wordAtPc = 0 :=
    congrArg₂ wordOfBytes (constructedByte_of_programBase_le hc le_rfl)
      (constructedByte_of_programBase_le hc (Nat.le_succ programBase))
  exact State.fetchInstr_of_decode_error hin (hword ▸ decodeWord_zero c.clsEnabled)

/-- Settles O43: neither the schedule nor the inputs are read by the fetch. -/
theorem firstCycleWithoutAProgramIsUnknown : Obligations.FirstCycleWithoutAProgramIsUnknown := by
  intro c sched hc hcycle
  obtain ⟨s₁, hstart⟩ := Option.isSome_iff_exists.mp hcycle
  have hsame : { State.construct c with schedule := sched }.fetchInstr = (State.construct c).fetchInstr :=
    State.fetchInstr_congr rfl rfl rfl
  exact step_of_fetchInstr_error hstart (hsame.trans (State.fetchInstr_construct hc))

end Sys2Proof.Machine
end
